-- ==== Sys2Proof/Word.lean ====
section
/-! DEFINITION. The bit vectors of SyncFIFO-CS (00_scope.md R6 to R13): every value is unsigned, bit 0 is the least
significant bit. -/

namespace Sys2Proof

/-- The 18-bit tagged operation word (30_encoding.md R65). -/
abbrev Word := BitVec 18

/-- A FIFO entry and the data byte of an operation, `DATA_W` = 8 bits (00_scope.md R7). -/
abbrev Byte := BitVec 8

/-- A FIFO index, `IDX_W` = 7 bits (00_scope.md R8). -/
abbrev Idx := BitVec 7

/-- A mask over the four power conditions, `PWR_N` = 4 bits (00_scope.md R11). -/
abbrev PwrMask := BitVec 4

/-- A response value, `RSP_W` = 32 bits (30_encoding.md R80). -/
abbrev RspVal := BitVec 32

end Sys2Proof
end

