-- ==== Sys2Proof/Syntax.lean ====
section
/-! DEFINITION. The seventeen operations of SyncFIFO-CS (30_encoding.md R71 to R73, R84), one constructor per row of
spec/opcode_table.json. An operand has the width of its field (R70), so every term is a well-formed instruction. -/

namespace Sys2Proof

inductive Instr where
  /-- NOP, port C (40_fifo.md R94) -/
  | nop
  /-- POP, port C (40_fifo.md R90, R91) -/
  | pop
  /-- STATUS, port C (40_fifo.md R92) -/
  | status
  /-- CS_BEGIN, port C (41_critical_section.md R101, R102) -/
  | csBegin
  /-- CS_END, port C (41_critical_section.md R103, R104) -/
  | csEnd
  /-- INT_ENABLE, port C (41_critical_section.md R106, R108) -/
  | intEnable
  /-- INT_DISABLE, port C (41_critical_section.md R107, R108) -/
  | intDisable
  /-- CS_STATUS, port C (41_critical_section.md R109) -/
  | csStatus
  /-- TICK_READ, port C (42_timer.md R120) -/
  | tickRead
  /-- INIT, port C (40_fifo.md R93) -/
  | init
  /-- FAULT_READ, port C (41_critical_section.md R110) -/
  | faultRead
  /-- RX_ARRIVE d, port E (40_fifo.md R86, R87) -/
  | rxArrive (d : Byte)
  /-- TICK_EXPIRE, port E (42_timer.md R116, R117) -/
  | tickExpire
  /-- PWR_SET m, port E (43_power_events.md R126, R127) -/
  | pwrSet (m : PwrMask)
  /-- PUSH d, port I (40_fifo.md R88, R89) -/
  | push (d : Byte)
  /-- TICK_INC, port I (42_timer.md R118, R119) -/
  | tickInc
  /-- PWR_SERVICE, port I (43_power_events.md R128 to R131) -/
  | pwrService
  deriving DecidableEq, Repr

end Sys2Proof
end

