-- ==== Sys2Proof/WellFormed.lean ====
section
/-! DEFINITION. Which operation words are well formed: the predicate `legal` of 30_encoding.md R75 as the rule writes it,
and the seventeen (match, mask) rows of spec/opcode_table.json (R84). A term of `Instr` cannot be ill formed (its operands
have the widths of their fields), so the checks of this file are about words. -/

namespace Sys2Proof

/-- `legal(w)` of 30_encoding.md R75, one line per line of the rule. -/
def legalWord (w : Word) : Bool :=
  (w.extractLsb' 16 2 == 0b00#2 && decide ((w.extractLsb' 12 4).toNat ≤ 0xA) && w.extractLsb' 0 12 == 0x000#12)
  || (w.extractLsb' 16 2 == 0b01#2 && w.extractLsb' 12 4 == 0x1#4 && w.extractLsb' 8 4 == 0x0#4)
  || (w.extractLsb' 16 2 == 0b01#2 && w.extractLsb' 12 4 == 0x2#4 && w.extractLsb' 0 12 == 0x000#12)
  || (w.extractLsb' 16 2 == 0b01#2 && w.extractLsb' 12 4 == 0x3#4 && w.extractLsb' 4 8 == 0x00#8)
  || (w.extractLsb' 16 2 == 0b10#2 && w.extractLsb' 12 4 == 0x1#4 && w.extractLsb' 8 4 == 0x0#4)
  || (w.extractLsb' 16 2 == 0b10#2 && w.extractLsb' 12 4 == 0x2#4 && w.extractLsb' 0 12 == 0x000#12)
  || (w.extractLsb' 16 2 == 0b10#2 && w.extractLsb' 12 4 == 0x3#4 && w.extractLsb' 0 12 == 0x000#12)

/-- One row of the opcode table (30_encoding.md R84): a word matches it when it agrees with `pat` wherever `mask` is 1. -/
structure OpRow where
  mnemonic : String
  pat : Word
  mask : Word
  deriving DecidableEq, Repr

def OpRow.accepts (r : OpRow) (w : Word) : Bool := w &&& r.mask == r.pat

/-- The rows of spec/opcode_table.json, in its order. -/
def opcodeRows : List OpRow :=
  [⟨"NOP", 0x00000#18, 0x3FFFF#18⟩,
   ⟨"POP", 0x01000#18, 0x3FFFF#18⟩,
   ⟨"STATUS", 0x02000#18, 0x3FFFF#18⟩,
   ⟨"CS_BEGIN", 0x03000#18, 0x3FFFF#18⟩,
   ⟨"CS_END", 0x04000#18, 0x3FFFF#18⟩,
   ⟨"INT_ENABLE", 0x05000#18, 0x3FFFF#18⟩,
   ⟨"INT_DISABLE", 0x06000#18, 0x3FFFF#18⟩,
   ⟨"CS_STATUS", 0x07000#18, 0x3FFFF#18⟩,
   ⟨"TICK_READ", 0x08000#18, 0x3FFFF#18⟩,
   ⟨"INIT", 0x09000#18, 0x3FFFF#18⟩,
   ⟨"FAULT_READ", 0x0A000#18, 0x3FFFF#18⟩,
   ⟨"RX_ARRIVE", 0x11000#18, 0x3FF00#18⟩,
   ⟨"TICK_EXPIRE", 0x12000#18, 0x3FFFF#18⟩,
   ⟨"PWR_SET", 0x13000#18, 0x3FFF0#18⟩,
   ⟨"PUSH", 0x21000#18, 0x3FF00#18⟩,
   ⟨"TICK_INC", 0x22000#18, 0x3FFFF#18⟩,
   ⟨"PWR_SERVICE", 0x23000#18, 0x3FFFF#18⟩]

/-- The rows a word matches. -/
def matchingRows (w : Word) : List OpRow := opcodeRows.filter (fun r => r.accepts w)

end Sys2Proof
end

