-- ==== Sys2Proof/Decode.lean ====
section
/-! DEFINITION. The decoder, total on every 18-bit word (30_encoding.md R82), and after it the encoder, both written from
the tables of 30_encoding.md R65 to R73. Decoding reads no state. -/

namespace Sys2Proof

/-- Field `port`, bits 17:16 (30_encoding.md R65). -/
def wordPort (w : Word) : BitVec 2 := w.extractLsb' 16 2

/-- Field `op`, bits 15:12. -/
def wordOp (w : Word) : BitVec 4 := w.extractLsb' 12 4

/-- Field `rsv`, bits 11:8. -/
def wordRsv (w : Word) : BitVec 4 := w.extractLsb' 8 4

/-- Field `imm8`, bits 7:0. -/
def wordImm8 (w : Word) : Byte := w.extractLsb' 0 8

/-- Why a word is illegal: the causes of ILLEGAL_OP (60_exceptions.md R136). Where a word has several, the one named is
the model's choice and nothing can observe it (log 19). -/
inductive IllegalCause where
  | reservedPort
  | reservedOp
  | nonzeroRsv
  | nonzeroImm8
  | nonzeroMaskHigh
  deriving DecidableEq, Repr

/-- What the decoder answers (30_encoding.md R82): an operation, or Illegal with its cause. -/
inductive Decoded where
  | ok (i : Instr)
  | illegal (cause : IllegalCause)
  deriving DecidableEq, Repr

def Decoded.instr? (r : Decoded) : Option Instr :=
  match r with
  | .ok i => some i
  | .illegal _ => none

/-- An operation without operand: `rsv` and `imm8` are zero (30_encoding.md R68, R69). -/
def decodePlain (w : Word) (i : Instr) : Decoded :=
  if wordRsv w ≠ 0 then .illegal .nonzeroRsv
  else if wordImm8 w ≠ 0 then .illegal .nonzeroImm8
  else .ok i

/-- An operation whose operand is the data byte `w[7:0]` (30_encoding.md R70). -/
def decodeByte (w : Word) (mk : Byte → Instr) : Decoded :=
  if wordRsv w ≠ 0 then .illegal .nonzeroRsv
  else .ok (mk (wordImm8 w))

/-- An operation whose operand is the mask `w[3:0]`; `w[7:4]` is zero (30_encoding.md R69, R70). -/
def decodeMask (w : Word) (mk : PwrMask → Instr) : Decoded :=
  if wordRsv w ≠ 0 then .illegal .nonzeroRsv
  else if (wordImm8 w).extractLsb' 4 4 ≠ 0 then .illegal .nonzeroMaskHigh
  else .ok (mk ((wordImm8 w).extractLsb' 0 4))

/-- Port C, consumer commands (30_encoding.md R71). -/
def decodePortC (w : Word) : Decoded :=
  match (wordOp w).toNat with
  | 0x0 => decodePlain w .nop
  | 0x1 => decodePlain w .pop
  | 0x2 => decodePlain w .status
  | 0x3 => decodePlain w .csBegin
  | 0x4 => decodePlain w .csEnd
  | 0x5 => decodePlain w .intEnable
  | 0x6 => decodePlain w .intDisable
  | 0x7 => decodePlain w .csStatus
  | 0x8 => decodePlain w .tickRead
  | 0x9 => decodePlain w .init
  | 0xA => decodePlain w .faultRead
  | _ => .illegal .reservedOp

/-- Port E, environment events (30_encoding.md R72). -/
def decodePortE (w : Word) : Decoded :=
  match (wordOp w).toNat with
  | 0x1 => decodeByte w .rxArrive
  | 0x2 => decodePlain w .tickExpire
  | 0x3 => decodeMask w .pwrSet
  | _ => .illegal .reservedOp

/-- Port I, internal operations (30_encoding.md R73). -/
def decodePortI (w : Word) : Decoded :=
  match (wordOp w).toNat with
  | 0x1 => decodeByte w .push
  | 0x2 => decodePlain w .tickInc
  | 0x3 => decodePlain w .pwrService
  | _ => .illegal .reservedOp

/-- `decode(w)` of 30_encoding.md R82; port 0b11 is reserved (R66). -/
def decode (w : Word) : Decoded :=
  match (wordPort w).toNat with
  | 0 => decodePortC w
  | 1 => decodePortE w
  | 2 => decodePortI w
  | _ => .illegal .reservedPort

/-- The instruction of a row of spec/opcode_table.json whose bits are `w`: the word itself, for the block stores no words
and has no byte order (20_memory.md R49). A value that is no 18-bit word has no instruction (log 16). -/
def decodeTableWord (nbits w : Nat) : Option Instr :=
  if w % 2 ^ nbits < 2 ^ 18 then (decode (BitVec.ofNat 18 (w % 2 ^ nbits))).instr? else none

/-- `{port, op, rsv = 0, imm8}` (30_encoding.md R65). -/
def tagWord (port : BitVec 2) (op : BitVec 4) (imm8 : Byte) : Word := port ++ op ++ 0#4 ++ imm8

/-- The word of an operation (30_encoding.md R71 to R73). -/
def encode (i : Instr) : Word :=
  match i with
  | .nop => tagWord 0b00 0x0 0
  | .pop => tagWord 0b00 0x1 0
  | .status => tagWord 0b00 0x2 0
  | .csBegin => tagWord 0b00 0x3 0
  | .csEnd => tagWord 0b00 0x4 0
  | .intEnable => tagWord 0b00 0x5 0
  | .intDisable => tagWord 0b00 0x6 0
  | .csStatus => tagWord 0b00 0x7 0
  | .tickRead => tagWord 0b00 0x8 0
  | .init => tagWord 0b00 0x9 0
  | .faultRead => tagWord 0b00 0xA 0
  | .rxArrive d => tagWord 0b01 0x1 d
  | .tickExpire => tagWord 0b01 0x2 0
  | .pwrSet m => tagWord 0b01 0x3 (0#4 ++ m)
  | .push d => tagWord 0b10 0x1 d
  | .tickInc => tagWord 0b10 0x2 0
  | .pwrService => tagWord 0b10 0x3 0

end Sys2Proof
end

