-- ==== Sys2Proof/Config.lean ====
section
/-! DEFINITION. What is fixed for the life of a SyncFIFO-CS (00_scope.md R6 to R12, 10_state.md R45), and the values the
spec leaves open: constants with no body, so that nothing in Lean can prove a value of one. -/

namespace Sys2Proof

/-- The FIFO capacity (00_scope.md R6); the index and counter widths of Word.lean follow it (R8, log 18). -/
def Config.cap : Nat := 128

/-- The deepest nesting of critical sections (00_scope.md R10). -/
def Config.depthMax : Nat := 255

/-- What an RX arrival does while the RX latch is full (00_scope.md R12, 40_fifo.md R87). -/
inductive RxOverrun where
  | dropNew
  | overwrite
  | stall
  deriving DecidableEq, Repr, Inhabited

/-- The three interrupt sources (60_exceptions.md R141). -/
inductive Source where
  | rx
  | tick
  | pwr
  deriving DecidableEq, Repr

/-- A fixed priority list of the three sources: one of its six orders (00_scope.md R12, log 22). -/
inductive Priority where
  | rxTickPwr
  | rxPwrTick
  | tickRxPwr
  | tickPwrRx
  | pwrRxTick
  | pwrTickRx
  deriving DecidableEq, Repr

/-- Which deliverable source may be delivered next (60_exceptions.md R146). -/
inductive IrqOrder where
  | any
  | fixed (p : Priority)
  deriving DecidableEq, Repr

/-- The two open parameters (00_scope.md R12). -/
structure Params where
  rxOverrun : RxOverrun
  irqOrder : IrqOrder
  deriving DecidableEq, Repr

/-- The RX_OVERRUN of the machine that `State.reset` is: any of the three values (92_eei_decisions.md D17, log 1). -/
opaque Config.rxOverrun : RxOverrun

/-- The byte that entry `i` of the FIFO storage holds after the `epoch`-th hardware reset, until a PUSH writes it
(93_implementation_defined.md U1: any value; log 2). -/
opaque Config.freeMemByte (epoch i : Nat) : Byte

/-- The byte in the RX latch after the `epoch`-th hardware reset (93_implementation_defined.md U3: any value; log 3). -/
opaque Config.freeRxData (epoch : Nat) : Byte

/-- Which of several deliveries is taken after the trace's end, at the `turn`-th such choice (60_exceptions.md R146, R148: any
choice is admitted; log 25). -/
opaque Config.freeChoice (turn : Nat) : Nat

end Sys2Proof
end

