-- ==== Sys2Proof/Machine/State.lean ====
section
/-! DEFINITION. The state of SyncFIFO-CS: the elements of 10_state.md R20, the outputs of the last step (R41), the
parameters (R45), and the agents' steps to come, as plain data. -/

namespace Sys2Proof.Machine

/-- What a port-C command drives on the response channel (10_state.md R41, 30_encoding.md R80). -/
structure Response where
  err : Bool
  val : RspVal
  deriving DecidableEq, Repr

/-- The codes of the faults the block records (60_exceptions.md R136). -/
inductive FaultCode where
  | illegalOp
  | csUnderflow
  | csOverflow
  | ieInCs
  deriving DecidableEq, Repr

/-- One step of one agent (00_scope.md R15, 95_test_vectors.md notation). -/
inductive Event where
  /-- a tagged word arrives on the port it names (30_encoding.md R65) -/
  | word (w : Word)
  /-- the interrupt controller delivers a source (60_exceptions.md R145) -/
  | deliver (src : Source)
  /-- the environment offers again the oldest byte it holds (40_fifo.md R87, Stall) -/
  | offerHeld
  /-- a clock in which no agent takes a step, whatever is pending (30_encoding.md R83, 60_exceptions.md R148, log 7) -/
  | idle
  /-- hardware reset, with the words on ports C and E in its clock, which are not performed (70_reset_and_hazards.md R170) -/
  | reset (portC portE : Option (BitVec 16))
  deriving DecidableEq, Repr

/-- The FIFO storage (10_state.md R22): the entries written since the last hardware reset, by rising index. An entry
that is not listed holds the unspecified byte of its reset (`State.unwritten`, log 2), so nothing written is left out. -/
abbrev Memory := List Host.Cell

structure State where
  /-- FIFO storage, `CAP` entries of 8 bits -/
  mem : Memory
  /-- write index -/
  wr : Idx
  /-- read index -/
  rd : Idx
  /-- free slots, 0 to `CAP` -/
  avail : BitVec 8
  /-- interrupt-delivery enable -/
  ie : Bool
  /-- `ie` at the outermost CS_BEGIN -/
  savedIe : Bool
  /-- nesting depth of critical sections -/
  depth : BitVec 8
  /-- RX latch: a byte waits for delivery -/
  rxPend : Bool
  /-- RX latch: the byte -/
  rxData : Byte
  /-- a tick waits for delivery -/
  tickPend : Bool
  /-- millisecond counter -/
  tick : BitVec 32
  /-- power-event status: 0 CONNECT, 1 DISCONNECT, 2 HOST_RESET, 3 HOST_RESUME -/
  pwrStat : PwrMask
  /-- code of the first fault since reset, 0 for none -/
  faultCode : BitVec 4
  /-- word of the first fault since reset -/
  faultWord : Word
  /-- output: the response the last step drove, none where it drove none (R41, log 13) -/
  rsp : Option Response
  /-- output: the power-event pulses of the last step (R41, log 13) -/
  pwrEvt : PwrMask
  /-- configuration: the open parameters, which no step changes (R45, log 1) -/
  params : Params
  /-- the model's own: the steps the agents take next, in order (R15, R57, log 6) -/
  trace : List Event
  /-- the model's own: the bytes the environment holds under Stall, oldest first (40_fifo.md R87, log 11) -/
  rxHeld : List Byte
  /-- the model's own: how many hardware resets there were, which selects the unspecified bytes (log 4) -/
  epoch : Nat
  /-- the model's own: how many deliveries were taken after a trace's end, which selects the next choice (log 25) -/
  turn : Nat
  deriving DecidableEq, Repr

/-- Why the machine stops. No fault of the block stops it (60_exceptions.md R139): these say that a trace asks for a step
that the block does not have, so no run of the block is lost. -/
inductive Fault where
  /-- Raised by a delivery of a source that is not enabled, or that IRQ_ORDER does not admit (60_exceptions.md R143,
  R146: no such step exists). Safe: the model stops (log 8). -/
  | deliveryNotEnabled (src : Source)
  /-- Raised by an offer of a held byte where the environment holds none (40_fifo.md R87). Safe: the model stops (log 11). -/
  | noHeldArrival
  deriving DecidableEq, Repr

/-- Why an input has no meaning. -/
inductive Refusal where
  /-- Raised by an arm of `exec` without a meaning. Safe. No arm raises it: every instruction has its meaning. -/
  | notModelled (mnemonic : String)
  /-- Raised by a port-I word given as an input: port I has no external driver (93_implementation_defined.md X1,
  30_encoding.md R74). Safe: the block never sees one (log 9). -/
  | portIHasNoInput
  deriving DecidableEq, Repr

/-- The state after the `epoch`-th hardware reset (10_state.md R43) of a machine with parameters `p`. -/
def State.atReset (p : Params) (epoch : Nat) : State where
  mem := []
  wr := 0
  rd := 0
  avail := BitVec.ofNat 8 Config.cap
  ie := false
  savedIe := false
  depth := 0
  rxPend := false
  rxData := Config.freeRxData epoch
  tickPend := false
  tick := 0
  pwrStat := 0b0000
  faultCode := 0
  faultWord := 0
  rsp := none
  pwrEvt := 0b0000
  params := p
  trace := []
  rxHeld := []
  epoch := epoch
  turn := 0

/-- The machine right after reset: RX_OVERRUN is open, IRQ_ORDER has its default `Any` (00_scope.md R12, log 1), and no
agent has a step to come (log 15). -/
def State.reset : State := State.atReset ⟨Config.rxOverrun, .any⟩ 0

end Sys2Proof.Machine
end

