-- ==== Sys2Proof/Machine/Ops.lean ====
section
/-! DEFINITION. The named operations over storage, indices, outputs and the fault register (00_scope.md R14), raising a
fault (60_exceptions.md R137) and hardware reset (70_reset_and_hazards.md R170). There is no return from a fault or a
delivery: a fault transfers no control and a delivery ends in its own step (60_exceptions.md R151, R152). -/

namespace Sys2Proof.Machine

/-- The byte written at an index since reset, if one was. -/
def Memory.read (m : Memory) (a : Nat) : Option Byte :=
  match m with
  | [] => none
  | (k, v) :: rest => if k = a then some v else Memory.read rest a

/-- Writes one byte and keeps the entries by rising index. -/
def Memory.write (m : Memory) (a : Nat) (b : Byte) : Memory :=
  match m with
  | [] => [(a, b)]
  | (k, v) :: rest =>
    if a < k then (a, b) :: (k, v) :: rest
    else if a = k then (a, b) :: rest
    else (k, v) :: Memory.write rest a b

/-- Every index of `m` is above `lo` or equal to it, below `CAP`, and the indices rise. -/
def Memory.wfFrom (lo : Nat) (m : Memory) : Bool :=
  match m with
  | [] => true
  | (k, _) :: rest => decide (lo ≤ k) && decide (k < Config.cap) && Memory.wfFrom (k + 1) rest

/-- The canonical form: indices strictly rising, each in `[0, CAP)` (20_memory.md R46). An index that is not listed has no
written byte, so no entry repeats what an unlisted index reads as. -/
def Memory.wf (m : Memory) : Bool := Memory.wfFrom 0 m

/-- What an entry that nothing has written since the last hardware reset holds: an unspecified byte (10_state.md R43,
40_fifo.md R99, log 2). -/
def State.unwritten (s : State) (a : Nat) : Byte := Config.freeMemByte s.epoch a

/-- `MemRead(a, 1)` (00_scope.md R14). -/
def State.memRead (s : State) (a : Nat) : Byte :=
  match Memory.read s.mem a with
  | some b => b
  | none => s.unwritten a

/-- `MemWrite(a, 1, b)` (00_scope.md R14). -/
def State.memWrite (s : State) (a : Nat) (b : Byte) : State := { s with mem := Memory.write s.mem a b }

/-- `(idx + 1) mod CAP` (40_fifo.md R98). -/
def nextIdx (i : Idx) : Idx := BitVec.ofNat 7 ((i.toNat + 1) % Config.cap)

/-- A port-C command's normal end, `respond(v)` (00_scope.md R14): the response is driven, no power event is. -/
def State.respond (s : State) (v : RspVal) : State := { s with rsp := some ⟨false, v⟩, pwrEvt := 0 }

/-- A faulting port-C command's response, (1, 0) (60_exceptions.md R137). -/
def State.respondError (s : State) : State := { s with rsp := some ⟨true, 0⟩, pwrEvt := 0 }

/-- A step that drives no response and no power event (10_state.md R41). -/
def State.silent (s : State) : State := { s with rsp := none, pwrEvt := 0 }

/-- `emit pwr_evt(v)` (00_scope.md R14, 43_power_events.md R128). -/
def State.emitPwrEvt (s : State) (v : PwrMask) : State := { s with rsp := none, pwrEvt := v }

/-- The 4-bit code of a fault (60_exceptions.md R136). -/
def FaultCode.bits (c : FaultCode) : BitVec 4 :=
  match c with
  | .illegalOp => 1
  | .csUnderflow => 2
  | .csOverflow => 3
  | .ieInCs => 4

/-- First-fault capture (60_exceptions.md R138). -/
def State.captureFault (s : State) (c : FaultCode) (w : Word) : State :=
  if s.faultCode = 0 then { s with faultCode := c.bits, faultWord := w } else s

/-- `raise Fault(code)` for the word `w` of the current step (60_exceptions.md R137). -/
def State.raiseFault (s : State) (c : FaultCode) (w : Word) : State :=
  if wordPort w = 0b00#2 then (s.captureFault c w).respondError else (s.captureFault c w).silent

/-- Hardware reset (70_reset_and_hazards.md R170, 10_state.md R43). The parameters stay (R45), and so does what the
environment has still to do or holds, which is outside the block (log 12). -/
def State.hardReset (s : State) : State :=
  { State.atReset s.params (s.epoch + 1) with trace := s.trace, rxHeld := s.rxHeld, turn := s.turn }

end Sys2Proof.Machine
end

