-- ==== Sys2Proof/Machine/Flags.lean ====
section
/-! DEFINITION. The derived quantities: fill state (10_state.md R26), queue (R29), pending and deliverable sources
(60_exceptions.md R142, R143). None of them is state. -/

namespace Sys2Proof.Machine

/-- `used = CAP - avail` (10_state.md R26). -/
def State.used (s : State) : Nat := Config.cap - s.avail.toNat

/-- `empty = (avail == CAP)`. -/
def State.empty (s : State) : Bool := decide (s.avail.toNat = Config.cap)

/-- `full = (avail == 0)`. -/
def State.full (s : State) : Bool := decide (s.avail.toNat = 0)

/-- The index of the k-th oldest byte, `(rd + k) mod CAP` (10_state.md R29). -/
def State.slot (s : State) (k : Nat) : Nat := (s.rd.toNat + k) % Config.cap

/-- The queue `Q`, oldest first (10_state.md R29). -/
def State.queue (s : State) : List Byte := (List.range s.used).map (fun k => s.memRead (s.slot k))

/-- `pwr_pend`, bit 6 of CS_STATUS: `pwr_stat != 0`. -/
def State.pwrPend (s : State) : Bool := decide (s.pwrStat ≠ 0)

/-- `pending(src)` (60_exceptions.md R142). -/
def State.pending (s : State) (src : Source) : Bool :=
  match src with
  | .rx => s.rxPend
  | .tick => s.tickPend
  | .pwr => s.pwrPend

/-- A delivery of `src` is enabled: `ie == 1 and pending(src)` (60_exceptions.md R143). -/
def State.deliverable (s : State) (src : Source) : Bool := s.ie && s.pending src

/-- The sources of a fixed priority list, first to last. -/
def Priority.order (p : Priority) : List Source :=
  match p with
  | .rxTickPwr => [.rx, .tick, .pwr]
  | .rxPwrTick => [.rx, .pwr, .tick]
  | .tickRxPwr => [.tick, .rx, .pwr]
  | .tickPwrRx => [.tick, .pwr, .rx]
  | .pwrRxTick => [.pwr, .rx, .tick]
  | .pwrTickRx => [.pwr, .tick, .rx]

/-- `src` may be delivered next: it is deliverable, and under a fixed list it is the first deliverable source of the list
(60_exceptions.md R146). -/
def State.mayDeliver (s : State) (src : Source) : Bool :=
  s.deliverable src &&
    match s.params.irqOrder with
    | .any => true
    | .fixed p => decide ((Priority.order p).find? s.deliverable = some src)

end Sys2Proof.Machine
end

