-- ==== Sys2Proof/Machine/Operands.lean ====
section
/-! DEFINITION. The operand forms: what an operation gives back on the response channel, field by field (30_encoding.md
R80), and what a delivery hands to its port-I operation (60_exceptions.md R145). The operands carried by words are taken out
in Decode.lean (30_encoding.md R70). -/

namespace Sys2Proof.Machine

/-- `zext_32` (00_scope.md R13). -/
def zext32 {n : Nat} (v : BitVec n) : RspVal := BitVec.setWidth 32 v

/-- POP with a byte: `[8]` found = 1, `[7:0]` the byte (40_fifo.md R90). -/
def popFoundRsp (d : Byte) : RspVal := zext32 (1#1 ++ d)

/-- POP without a byte: found = 0, data 0x00 (40_fifo.md R91). -/
def popEmptyRsp : RspVal := 0

/-- STATUS: `[9]` full, `[8]` empty, `[7:0]` avail (40_fifo.md R92). -/
def statusRsp (s : State) : RspVal := zext32 (BitVec.ofBool s.full ++ BitVec.ofBool s.empty ++ s.avail)

/-- CS_BEGIN and CS_END: `[15:8]` depth after the command, `[0]` an enable (41_critical_section.md R101, R103). -/
def csRsp (newDepth : BitVec 8) (ie : Bool) : RspVal := zext32 (newDepth ++ 0#7 ++ BitVec.ofBool ie)

/-- CS_STATUS (41_critical_section.md R109). -/
def csStatusRsp (s : State) : RspVal :=
  zext32 (s.pwrStat ++ s.faultCode ++ s.depth ++ 0#1 ++ BitVec.ofBool s.pwrPend ++ BitVec.ofBool s.tickPend
    ++ BitVec.ofBool s.rxPend ++ 0#2 ++ BitVec.ofBool s.savedIe ++ BitVec.ofBool s.ie)

/-- FAULT_READ: `[27:24]` fault_code, `[17:0]` fault_word (41_critical_section.md R110). -/
def faultReadRsp (s : State) : RspVal := zext32 (s.faultCode ++ 0#6 ++ s.faultWord)

/-- The port-I operation a delivery performs, with its operand (60_exceptions.md R141, R145). -/
def deliveryInstr (src : Source) (s : State) : Instr :=
  match src with
  | .rx => .push s.rxData
  | .tick => .tickInc
  | .pwr => .pwrService

end Sys2Proof.Machine
end

