-- ==== Sys2Proof/Machine/CriticalSection.lean ====
section
/-! DEFINITION. The critical-section machine and the status commands (41_critical_section.md R100 to R110). -/

namespace Sys2Proof.Machine

/-- CS_BEGIN (41_critical_section.md R101; at depth 255, R102). -/
def execCsBegin (s : State) : Host.Outcome State Fault Refusal :=
  if s.depth.toNat = Config.depthMax then .next (s.raiseFault .csOverflow (encode .csBegin))
  else
    .next (({ s with
        savedIe := if s.depth = 0 then s.ie else s.savedIe
        ie := false
        depth := s.depth + 1 } : State).respond (csRsp (s.depth + 1) s.ie))

/-- The enable after a CS_END: restored by the outermost one, off inside a section (41_critical_section.md R103). -/
def State.ieAfterEnd (s : State) : Bool := if s.depth = 1 then s.savedIe else false

/-- CS_END (41_critical_section.md R103; at depth 0, R104). -/
def execCsEnd (s : State) : Host.Outcome State Fault Refusal :=
  if s.depth = 0 then .next (s.raiseFault .csUnderflow (encode .csEnd))
  else
    .next (({ s with ie := s.ieAfterEnd, depth := s.depth - 1 } : State).respond (csRsp (s.depth - 1) s.ieAfterEnd))

/-- INT_ENABLE and INT_DISABLE share one shape: outside a section they set `ie`, inside one they fault
(41_critical_section.md R106 to R108). -/
def State.setIe (s : State) (b : Bool) (w : Word) : State :=
  if s.depth = 0 then ({ s with ie := b } : State).respond 0 else s.raiseFault .ieInCs w

/-- INT_ENABLE (41_critical_section.md R106, R108). -/
def execIntEnable (s : State) : Host.Outcome State Fault Refusal := .next (s.setIe true (encode .intEnable))

/-- INT_DISABLE (41_critical_section.md R107, R108). -/
def execIntDisable (s : State) : Host.Outcome State Fault Refusal := .next (s.setIe false (encode .intDisable))

/-- CS_STATUS (41_critical_section.md R109). -/
def execCsStatus (s : State) : Host.Outcome State Fault Refusal := .next (s.respond (csStatusRsp s))

/-- FAULT_READ (41_critical_section.md R110). -/
def execFaultRead (s : State) : Host.Outcome State Fault Refusal := .next (s.respond (faultReadRsp s))

end Sys2Proof.Machine
end

