-- ==== Sys2Proof/Machine/Fifo.lean ====
section
/-! DEFINITION. The FIFO family: RX_ARRIVE, PUSH, POP, STATUS, INIT, NOP (40_fifo.md R85 to R94). -/

namespace Sys2Proof.Machine

/-- RX_ARRIVE d (40_fifo.md R86; with the latch full, R87 by RX_OVERRUN). Under Stall the byte does not reach the block:
the environment keeps it (log 11). -/
def execRxArrive (d : Byte) (s : State) : Host.Outcome State Fault Refusal :=
  if s.rxPend = false then .next ({ s with rxData := d, rxPend := true } : State).silent
  else
    match s.params.rxOverrun with
    | .dropNew => .next s.silent
    | .overwrite => .next ({ s with rxData := d } : State).silent
    | .stall => .next ({ s with rxHeld := s.rxHeld ++ [d] } : State).silent

/-- PUSH d (40_fifo.md R88; on a full FIFO the byte is dropped, R89). -/
def execPush (d : Byte) (s : State) : Host.Outcome State Fault Refusal :=
  if s.avail.toNat > 0 then
    .next ({ s.memWrite s.wr.toNat d with wr := nextIdx s.wr, avail := s.avail - 1 } : State).silent
  else .next s.silent

/-- POP (40_fifo.md R90; on an empty FIFO, R91). -/
def execPop (s : State) : Host.Outcome State Fault Refusal :=
  if s.avail.toNat < Config.cap then
    .next (({ s with rd := nextIdx s.rd, avail := s.avail + 1 } : State).respond (popFoundRsp (s.memRead s.rd.toNat)))
  else .next (s.respond popEmptyRsp)

/-- STATUS (40_fifo.md R92). -/
def execStatus (s : State) : Host.Outcome State Fault Refusal := .next (s.respond (statusRsp s))

/-- INIT (40_fifo.md R93): storage is not cleared. -/
def execInit (s : State) : Host.Outcome State Fault Refusal :=
  .next (({ s with wr := 0, rd := 0, avail := BitVec.ofNat 8 Config.cap } : State).respond 0)

/-- NOP (40_fifo.md R94). -/
def execNop (s : State) : Host.Outcome State Fault Refusal := .next (s.respond 0)

end Sys2Proof.Machine
end

