-- ==== Sys2Proof/Machine/Power.lean ====
section
/-! DEFINITION. The power-event unit (43_power_events.md R125 to R131). -/

namespace Sys2Proof.Machine

/-- PWR_SET m (43_power_events.md R126). -/
def execPwrSet (m : PwrMask) (s : State) : Host.Outcome State Fault Refusal :=
  .next ({ s with pwrStat := s.pwrStat ||| m } : State).silent

/-- The status register after `v` is written back to it: write-one-to-clear (43_power_events.md R130). -/
def writeOneToClear (stat v : PwrMask) : PwrMask := stat &&& ~~~v

/-- PWR_SERVICE (43_power_events.md R128): reads the status, writes it back, emits one pulse per serviced condition. -/
def execPwrService (s : State) : Host.Outcome State Fault Refusal :=
  .next (({ s with pwrStat := writeOneToClear s.pwrStat s.pwrStat } : State).emitPwrEvt s.pwrStat)

end Sys2Proof.Machine
end

