-- ==== Sys2Proof/Machine/Timer.lean ====
section
/-! DEFINITION. The tick unit (42_timer.md R115 to R120). -/

namespace Sys2Proof.Machine

/-- TICK_EXPIRE (42_timer.md R116; with a tick pending it merges, R117). -/
def execTickExpire (s : State) : Host.Outcome State Fault Refusal := .next ({ s with tickPend := true } : State).silent

/-- TICK_INC (42_timer.md R118; wraps modulo 2^32, R119). -/
def execTickInc (s : State) : Host.Outcome State Fault Refusal := .next ({ s with tick := s.tick + 1 } : State).silent

/-- TICK_READ (42_timer.md R120). -/
def execTickRead (s : State) : Host.Outcome State Fault Refusal := .next (s.respond s.tick)

end Sys2Proof.Machine
end

