-- ==== Sys2Proof/Machine/Dispatch.lean ====
section
/-! DEFINITION. One arm per operation. -/

namespace Sys2Proof.Machine

def exec (i : Instr) (s : State) : Host.Outcome State Fault Refusal :=
  match i with
  | .nop => Sys2Proof.Machine.execNop s
  | .pop => Sys2Proof.Machine.execPop s
  | .status => Sys2Proof.Machine.execStatus s
  | .csBegin => Sys2Proof.Machine.execCsBegin s
  | .csEnd => Sys2Proof.Machine.execCsEnd s
  | .intEnable => Sys2Proof.Machine.execIntEnable s
  | .intDisable => Sys2Proof.Machine.execIntDisable s
  | .csStatus => Sys2Proof.Machine.execCsStatus s
  | .tickRead => Sys2Proof.Machine.execTickRead s
  | .init => Sys2Proof.Machine.execInit s
  | .faultRead => Sys2Proof.Machine.execFaultRead s
  | .rxArrive d => Sys2Proof.Machine.execRxArrive d s
  | .tickExpire => Sys2Proof.Machine.execTickExpire s
  | .pwrSet m => Sys2Proof.Machine.execPwrSet m s
  | .push d => Sys2Proof.Machine.execPush d s
  | .tickInc => Sys2Proof.Machine.execTickInc s
  | .pwrService => Sys2Proof.Machine.execPwrService s

end Sys2Proof.Machine
end

