-- ==== Sys2Proof/Machine/Delivery.lean ====
section
/-! DEFINITION. The steps of the three agents: a word arriving on a port (30_encoding.md R75), an interrupt delivery
(60_exceptions.md R145), a held arrival offered again (40_fifo.md R87) and hardware reset (70_reset_and_hazards.md R170).
Delivery is entry and return in one: it ends in its own step (60_exceptions.md R151, R152). -/

namespace Sys2Proof.Machine

/-- A word given on the port it names. An illegal word raises ILLEGAL_OP and does nothing else, port 0b11 included
(30_encoding.md R75). A port-I word is no input (30_encoding.md R74, log 9). -/
def arrive (w : Word) (s : State) : Host.Outcome State Fault Refusal :=
  if wordPort w = 0b10#2 then .refused .portIHasNoInput
  else
    match decode w with
    | .ok i => exec i s
    | .illegal _ => .next (s.raiseFault .illegalOp w)

/-- The pending state a delivery of `src` clears itself: `rx_pend` or `tick_pend`; PWR's is cleared by PWR_SERVICE
(60_exceptions.md R145). -/
def State.acknowledge (s : State) (src : Source) : State :=
  match src with
  | .rx => { s with rxPend := false }
  | .tick => { s with tickPend := false }
  | .pwr => s

/-- `deliver(src)` (60_exceptions.md R145), where it is enabled and admitted (R143, R146). -/
def deliver (src : Source) (s : State) : Host.Outcome State Fault Refusal :=
  if s.mayDeliver src then exec (deliveryInstr src s) (s.acknowledge src)
  else .fault (.deliveryNotEnabled src)

/-- The environment offers the oldest byte it holds: while the latch is full under Stall it goes on holding it
(40_fifo.md R87, log 11). -/
def offerHeld (s : State) : Host.Outcome State Fault Refusal :=
  match s.rxHeld with
  | [] => .fault .noHeldArrival
  | d :: rest =>
    if s.rxPend && decide (s.params.rxOverrun = .stall) then .next s.silent
    else exec (.rxArrive d) { s with rxHeld := rest }

/-- One step of one agent. The words of a reset's clock are not performed (70_reset_and_hazards.md R170). -/
def perform (ev : Event) (s : State) : Host.Outcome State Fault Refusal :=
  match ev with
  | .word w => arrive w s
  | .deliver src => deliver src s
  | .offerHeld => offerHeld s
  | .idle => .next s.silent
  | .reset _ _ => .next s.hardReset

/-- The sources that may be delivered now (60_exceptions.md R143, R146). -/
def State.admitted (s : State) : List Source := [Source.rx, Source.tick, Source.pwr].filter s.mayDeliver

/-- One source that may be delivered, where there is one: any of them (log 25). -/
def State.pickAdmitted (s : State) : Option Source :=
  match s.admitted with
  | [] => none
  | [src] => some src
  | src :: rest => some (rest.getD (Config.freeChoice s.turn) src)

/-- The step after the trace's end. Weak fairness (60_exceptions.md R148) has an enabled delivery taken, and the environment
offers a byte it holds where the latch has room (40_fifo.md R87, 60_exceptions.md R159); else the clock is idle (log 7, 11, 25). -/
def State.eventAfterTrace (s : State) : Event :=
  match s.pickAdmitted with
  | some src => .deliver src
  | none => if s.rxPend = false ∧ s.rxHeld ≠ [] then .offerHeld else .idle

/-- The step that is taken next: the trace's first, or the one after its end. -/
def State.nextEvent (s : State) : Event :=
  match s.trace with
  | ev :: _ => ev
  | [] => s.eventAfterTrace

/-- A delivery after the trace's end uses up one choice. -/
def State.nextTurn (s : State) : Nat :=
  match s.trace, s.admitted with
  | [], _ :: _ => s.turn + 1
  | _, _ => s.turn

/-- The state in which the next step is performed: that step is no longer to come. -/
def State.takeEvent (s : State) : State := { s with trace := s.trace.tail, turn := s.nextTurn }

/-- The same state with no source pending but `src`. -/
def State.onlyPending (s : State) (src : Source) : State :=
  { s with
    rxPend := s.rxPend && decide (src = .rx)
    tickPend := s.tickPend && decide (src = .tick)
    pwrStat := if src = .pwr then s.pwrStat else 0 }

/-- Makes a delivery of the pending source `src` the next step; the other sources lose their pending events only where
IRQ_ORDER would put one of them first (log 14). -/
def State.armDelivery (s : State) (src : Source) : State :=
  if ({ s with ie := true, trace := .deliver src :: s.trace } : State).mayDeliver src then
    { s with ie := true, trace := .deliver src :: s.trace }
  else ({ s with ie := true, trace := .deliver src :: s.trace } : State).onlyPending src

/-- The state in which the very next step performs the word `w`: a port-I operation is performed by a delivery and by
nothing else (30_encoding.md R74), so its source is made pending with the operand; every other word arrives (log 14). -/
def State.presentWord (s : State) (w : Word) : State :=
  match decode w with
  | .ok (.push d) => ({ s with rxPend := true, rxData := d } : State).armDelivery .rx
  | .ok .tickInc => ({ s with tickPend := true } : State).armDelivery .tick
  | .ok .pwrService => ({ s with pwrStat := if s.pwrStat = 0 then 0b0001 else s.pwrStat } : State).armDelivery .pwr
  | _ => { s with trace := .word w :: s.trace }

/-- The state in which the very next step performs the word whose bits are `w`, numbered as the opcode table numbers them
(log 16). -/
def State.presentTableWord (s : State) (nbits w : Nat) : State := s.presentWord (BitVec.ofNat 18 (w % 2 ^ nbits))

end Sys2Proof.Machine
end

