-- ==== Sys2Proof/Machine/Step.lean ====
section
/-! DEFINITION. One step: the next agent's step of the trace, or the step after its end (00_scope.md R15, 60_exceptions.md R148). -/

namespace Sys2Proof.Machine

/-- Performs the next step of the trace, or the step after its end. -/
def step (s : State) : Host.Outcome State Fault Refusal := perform s.nextEvent s.takeEvent

/-- `s` with the instruction word `w` where the next step takes it (log 14, 15, 16). -/
def State.withFetchWord (s : State) (nbits w : Nat) : State := s.presentTableWord nbits w

end Sys2Proof.Machine
end

