-- ==== Sys2Proof/Machine/Asm.lean ====
section
/-! DEFINITION. The assembler syntax (30_encoding.md R78) and the pseudo-instruction READ_BYTE (R79): one line gives the
steps it stands for. Spacing and letter case are the model's choice (log 20). -/

namespace Sys2Proof.Machine

/-- A hexadecimal digit. -/
def hexDigit (c : Char) : Option Nat :=
  "0123456789ABCDEF".toList.findIdx? (fun x => x == c.toUpper)

/-- A decimal digit. -/
def decDigit (c : Char) : Option Nat := "0123456789".toList.findIdx? (fun x => x == c)

/-- Reads digits of one base, most significant first. -/
def digitsValue (base : Nat) (digit : Char → Option Nat) (acc : Nat) (cs : List Char) : Option Nat :=
  match cs with
  | [] => some acc
  | c :: rest =>
    match digit c with
    | some v => if v < base then digitsValue base digit (acc * base + v) rest else none
    | none => none

/-- A byte operand: `0xNN`, or a decimal number 0 to 255. -/
def asmByte (tok : List Char) : Option Byte :=
  match tok with
  | ['0', 'x', h, l] => (digitsValue 16 hexDigit 0 [h, l]).map (BitVec.ofNat 8)
  | [] => none
  | cs =>
    match digitsValue 10 decDigit 0 cs with
    | some v => if v < 256 then some (BitVec.ofNat 8 v) else none
    | none => none

/-- The bit of a condition's name (10_state.md R38). -/
def conditionBit (name : List Char) : Option PwrMask :=
  if name = "CONNECT".toList then some 0b0001
  else if name = "DISCONNECT".toList then some 0b0010
  else if name = "HOST_RESET".toList then some 0b0100
  else if name = "HOST_RESUME".toList then some 0b1000
  else none

/-- Cuts a text at every `sep`; `cur` is the piece being read, last letter first. -/
def cutAt (sep : Char) (cur : List Char) (cs : List Char) : List (List Char) :=
  match cs with
  | [] => [cur.reverse]
  | c :: rest => if c = sep then cur.reverse :: cutAt sep [] rest else cutAt sep (c :: cur) rest

/-- The union of a list of named conditions. -/
def conditionsMask (names : List (List Char)) : Option PwrMask :=
  match names with
  | [] => some 0
  | n :: rest =>
    match conditionBit n, conditionsMask rest with
    | some b, some m => some (b ||| m)
    | _, _ => none

/-- A mask operand: `0bNNNN`, or names joined by `|`. -/
def asmMask (tok : List Char) : Option PwrMask :=
  match tok with
  | ['0', 'b', b3, b2, b1, b0] => (digitsValue 2 decDigit 0 [b3, b2, b1, b0]).map (BitVec.ofNat 4)
  | cs => conditionsMask (cutAt '|' [] cs)

/-- The tokens of a line: its pieces between spaces. -/
def asmTokens (line : List Char) : List (List Char) := (cutAt ' ' [] line).filter (fun t => !t.isEmpty)

/-- Port C, one mnemonic and no operand. -/
def asmPortC (name : List Char) : Option (List Instr) :=
  if name = "NOP".toList then some [.nop]
  else if name = "POP".toList then some [.pop]
  else if name = "STATUS".toList then some [.status]
  else if name = "CS_BEGIN".toList then some [.csBegin]
  else if name = "CS_END".toList then some [.csEnd]
  else if name = "INT_ENABLE".toList then some [.intEnable]
  else if name = "INT_DISABLE".toList then some [.intDisable]
  else if name = "CS_STATUS".toList then some [.csStatus]
  else if name = "TICK_READ".toList then some [.tickRead]
  else if name = "INIT".toList then some [.init]
  else if name = "FAULT_READ".toList then some [.faultRead]
  else if name = "READ_BYTE".toList then some [.csBegin, .pop, .csEnd]
  else none

/-- Port E. -/
def asmPortE (toks : List (List Char)) : Option (List Instr) :=
  match toks with
  | [name] => if name = "TICK_EXPIRE".toList then some [.tickExpire] else none
  | [name, arg] =>
    if name = "RX_ARRIVE".toList then (asmByte arg).map (fun d => [.rxArrive d])
    else if name = "PWR_SET".toList then (asmMask arg).map (fun m => [.pwrSet m])
    else none
  | _ => none

/-- Port I. -/
def asmPortI (toks : List (List Char)) : Option (List Instr) :=
  match toks with
  | [name] =>
    if name = "TICK_INC".toList then some [.tickInc]
    else if name = "PWR_SERVICE".toList then some [.pwrService]
    else none
  | [name, arg] => if name = "PUSH".toList then (asmByte arg).map (fun d => [.push d]) else none
  | _ => none

/-- The operations of one line. -/
def asmInstrs (line : List Char) : Option (List Instr) :=
  match asmTokens line with
  | ['E', ':'] :: rest => asmPortE rest
  | ['I', ':'] :: rest => asmPortI rest
  | [['C', ':'], name] => asmPortC name
  | [name] => asmPortC name
  | _ => none

/-- The source a `deliver` line names. -/
def asmSource (name : List Char) : Option Source :=
  if name = "RX".toList then some .rx
  else if name = "TICK".toList then some .tick
  else if name = "PWR".toList then some .pwr
  else none

/-- One line of a trace (30_encoding.md R78): the pseudo-steps `deliver RX`, `deliver TICK`, `deliver PWR` and `reset`, or
the words of an operation line. -/
def assembleLine (line : String) : Option (List Event) :=
  match asmTokens line.toList with
  | [one] =>
    if one = "reset".toList then some [.reset none none]
    else (asmInstrs line.toList).map (fun is => is.map (fun i => .word (encode i)))
  | [one, two] =>
    if one = "deliver".toList then (asmSource two).map (fun src => [.deliver src])
    else (asmInstrs line.toList).map (fun is => is.map (fun i => .word (encode i)))
  | _ => (asmInstrs line.toList).map (fun is => is.map (fun i => .word (encode i)))

end Sys2Proof.Machine
end

