-- ==== Sys2Proof/Safety.lean ====
section
/-! DEFINITION. What a sound state and a run are: the invariants of 10_state.md R27, R28, R34 and 60_exceptions.md R136,
R137, the end of a run (70_reset_and_hazards.md R183), what a run accepts, returns and delivers (40_fifo.md R95,
42_timer.md R121), and weak fairness (60_exceptions.md R148). -/

namespace Sys2Proof.Machine

/-- `0 <= avail <= CAP` (10_state.md R27). -/
abbrev State.AvailInRange (s : State) : Prop := s.avail.toNat ≤ Config.cap

/-- `(wr - rd) mod CAP == used mod CAP` (10_state.md R28). -/
abbrev State.IndexRelation (s : State) : Prop :=
  (s.wr.toNat + Config.cap - s.rd.toNat) % Config.cap = s.used % Config.cap

/-- `depth > 0` implies `ie = 0` (10_state.md R34). -/
abbrev State.MaskedInSection (s : State) : Prop := s.depth ≠ 0 → s.ie = false

/-- The fault register holds a code of 60_exceptions.md R136 with a word that raises it, or nothing (R137). -/
abbrev State.FaultRecordLegal (s : State) : Prop :=
  (s.faultCode = 0 ∧ s.faultWord = 0)
  ∨ (s.faultCode = 1 ∧ legalWord s.faultWord = false)
  ∨ (s.faultCode = 2 ∧ s.faultWord = 0x04000#18)
  ∨ (s.faultCode = 3 ∧ s.faultWord = 0x03000#18)
  ∨ (s.faultCode = 4 ∧ (s.faultWord = 0x05000#18 ∨ s.faultWord = 0x06000#18))

/-- Storage is in its canonical form. -/
abbrev State.StorageCanonical (s : State) : Prop := Memory.wf s.mem = true

/-- Every byte of the queue was written since the last hardware reset (40_fifo.md R99). -/
abbrev State.QueueWritten (s : State) : Prop := ∀ k, k < s.used → (Memory.read s.mem (s.slot k)).isSome = true

/-- The environment holds a byte only where an arrival can stall (40_fifo.md R87). -/
abbrev State.HeldOnlyUnderStall (s : State) : Prop := s.rxHeld ≠ [] → s.params.rxOverrun = .stall

/-- The invariant of every state a run reaches. -/
structure State.Inv (s : State) : Prop where
  availInRange : s.AvailInRange
  indexRelation : s.IndexRelation
  maskedInSection : s.MaskedInSection
  faultRecordLegal : s.FaultRecordLegal
  storageCanonical : s.StorageCanonical
  queueWritten : s.QueueWritten
  heldOnlyUnderStall : s.HeldOnlyUnderStall

/-- A run has ended: every step of the trace is performed, no delivery is enabled, no arrival is held
(70_reset_and_hazards.md R183). -/
def State.runEnded (s : State) : Bool :=
  s.trace.isEmpty && !s.deliverable .rx && !s.deliverable .tick && !s.deliverable .pwr && s.rxHeld.isEmpty

/-- The byte that the next step's PUSH accepts, if it accepts one (40_fifo.md R88). -/
def State.acceptedNext (s : State) : List Byte :=
  match s.nextEvent with
  | .deliver .rx => if s.mayDeliver .rx && decide (s.avail.toNat > 0) then [s.rxData] else []
  | _ => []

/-- The byte a response of POP returns: its data where `found` is 1 (30_encoding.md R80). -/
def Response.poppedByte (r : Response) : List Byte :=
  if r.err = false ∧ r.val.getLsbD 8 = true then [r.val.extractLsb' 0 8] else []

/-- The byte that the next step returns to the consumer, read off the response channel of a POP. -/
def State.returnedNext (s : State) : List Byte :=
  match s.nextEvent, step s with
  | .word w, .next t =>
    match decode w, t.rsp with
    | .ok .pop, some r => r.poppedByte
    | _, _ => []
  | _, _ => []

/-- Whether the next step is a tick delivery: 1 or 0. -/
def State.tickDeliveredNext (s : State) : Nat :=
  match s.nextEvent with
  | .deliver .tick => if s.mayDeliver .tick then 1 else 0
  | _ => 0

/-- The bytes accepted in the next `k` steps, in order. -/
def acceptedIn (k : Nat) (s : State) : List Byte :=
  match k with
  | 0 => []
  | k + 1 =>
    s.acceptedNext ++
      match step s with
      | .next t => acceptedIn k t
      | _ => []

/-- The bytes returned by POP in the next `k` steps, in order. -/
def returnedIn (k : Nat) (s : State) : List Byte :=
  match k with
  | 0 => []
  | k + 1 =>
    s.returnedNext ++
      match step s with
      | .next t => returnedIn k t
      | _ => []

/-- How many ticks are delivered in the next `k` steps. -/
def ticksDeliveredIn (k : Nat) (s : State) : Nat :=
  match k with
  | 0 => 0
  | k + 1 =>
    s.tickDeliveredNext +
      match step s with
      | .next t => ticksDeliveredIn k t
      | _ => 0

/-- An infinite execution of the block: at each moment `n` some agent's step `ev n` is performed. The steps come from outside, so
`trace` plays no part. -/
def IsExecution (ev : Nat → Event) (st : Nat → State) : Prop := ∀ n, perform (ev n) (st n) = .next (st (n + 1))

/-- Weak fairness (60_exceptions.md R148): a delivery that stays enabled (R143) from some moment on is taken at that moment or a
later one, with no bound on how much later. -/
def WeaklyFair (ev : Nat → Event) (st : Nat → State) : Prop :=
  ∀ n src, (∀ m, n ≤ m → (st m).deliverable src = true) → ∃ m, n ≤ m ∧ ev m = .deliver src

/-- A step that empties the FIFO: INIT or hardware reset (10_state.md R29). -/
def Event.emptiesFifo (ev : Event) : Bool :=
  match ev with
  | .word w => decide (decode w = .ok .init)
  | .reset _ _ => true
  | _ => false

/-- A hardware reset. -/
def Event.isReset (ev : Event) : Bool :=
  match ev with
  | .reset _ _ => true
  | _ => false

/-- The word of one command of a nest: CS_BEGIN for true, CS_END for false (30_encoding.md R71). -/
def nestWord (isBegin : Bool) : Word := if isBegin then 0x03000#18 else 0x04000#18

/-- The depth after a sequence of CS_BEGINs (true) and CS_ENDs (false) begun at depth `n`, where it is balanced and never
deeper than `DEPTH_MAX` (41_critical_section.md R105). -/
def nestDepth (n : Nat) (cmds : List Bool) : Option Nat :=
  match cmds with
  | [] => some n
  | true :: rest => if n < Config.depthMax then nestDepth (n + 1) rest else none
  | false :: rest => if 0 < n then nestDepth (n - 1) rest else none

end Sys2Proof.Machine
end

