-- ==== Sys2Proof/Certificates/Slice0/Obligations.lean ====
section
/-! DEFINITION. The statements for the provers. Each says which rule of spec/ it formalises; the words 'the model's' mark
what a log entry chose. An equation `exec i s = .next { s with … }` says the result, the frame (every field not named is
unchanged, storage included) and that the operation completes. -/

open Sys2Proof Sys2Proof.Machine

/-! ## Words, decoding, steps -/

/-- Words written out bit by bit from 30_encoding.md R65, R71 to R73: port, op, rsv, imm8. -/
def Obligations.WordsOfEveryFamilyDecode : Prop :=
  decode 0b00_0001_0000_00000000#18 = .ok .pop
  ∧ decode 0b00_0011_0000_00000000#18 = .ok .csBegin
  ∧ decode 0b00_1010_0000_00000000#18 = .ok .faultRead
  ∧ decode 0b01_0001_0000_01000001#18 = .ok (.rxArrive 0x41)
  ∧ decode 0b01_0010_0000_00000000#18 = .ok .tickExpire
  ∧ decode 0b01_0011_0000_00001001#18 = .ok (.pwrSet 0b1001)
  ∧ decode 0b10_0001_0000_01000001#18 = .ok (.push 0x41)

/-- 30_encoding.md R82 with R75: an operation exactly where the word is legal. -/
def Obligations.DecodeAcceptsExactlyLegalWords : Prop :=
  ∀ w : Word, (∃ i, decode w = .ok i) ↔ legalWord w = true

/-- 30_encoding.md R65 to R73, R82: `decode` and `encode` are inverse, in both directions, with every operand value. -/
def Obligations.DecodeAndEncodeAreInverse : Prop :=
  ∀ (w : Word) (i : Instr), decode w = .ok i ↔ encode i = w

/-- 30_encoding.md R84: a legal word matches exactly one row of the opcode table, any other word none. -/
def Obligations.LegalWordMatchesExactlyOneRow : Prop :=
  ∀ w : Word, (matchingRows w).length = if legalWord w = true then 1 else 0

/-- 00_scope.md R15, 30_encoding.md R75: a word on port C or E that decodes runs its operation, and only the trace moves on;
a delivery that is admitted runs the port-I operation of its source (60_exceptions.md R145). The last two clauses are the model's
(log 25): after the trace's end some enabled delivery is taken, and where there is none the environment offers a byte it holds. -/
def Obligations.StepRunsTheDecodedOperation : Prop :=
  (∀ (s : State) (w : Word) (i : Instr) (rest : List Event),
    s.trace = .word w :: rest → wordPort w ≠ 0b10#2 → decode w = .ok i →
      step s = exec i { s with trace := rest })
  ∧ (∀ (s : State) (rest : List Event), s.trace = .deliver .rx :: rest → s.mayDeliver .rx = true →
      step s = exec (.push s.rxData) { s with trace := rest, rxPend := false })
  ∧ (∀ (s : State) (rest : List Event), s.trace = .deliver .tick :: rest → s.mayDeliver .tick = true →
      step s = exec .tickInc { s with trace := rest, tickPend := false })
  ∧ (∀ (s : State) (rest : List Event), s.trace = .deliver .pwr :: rest → s.mayDeliver .pwr = true →
      step s = exec .pwrService { s with trace := rest })
  ∧ (∀ s : State, s.trace = [] → (∃ src, s.deliverable src = true) →
      ∃ src, s.mayDeliver src = true ∧ step s = step { s with trace := [.deliver src], turn := s.turn + 1 })
  ∧ (∀ (s : State) (d : Byte) (held : List Byte), s.trace = [] → (∀ src, s.deliverable src = false) →
      s.rxHeld = d :: held → s.rxPend = false → step s = exec (.rxArrive d) { s with rxHeld := held })

/-- The model's (log 14, 16): the state `withFetchWord` gives performs exactly the word's operation in its next step; a port-I
operation through a delivery that leaves FIFO, tick counter, nesting and fault register as they were for the operation. -/
def Obligations.PresentedWordRunsNext : Prop :=
  (∀ (s : State) (w : Word) (i : Instr), decode w = .ok i → wordPort w ≠ 0b10#2 →
    step (s.withFetchWord 24 w.toNat) = exec i s)
  ∧ (∀ (s : State) (w : Word) (i : Instr), decode w = .ok i → wordPort w = 0b10#2 →
    ∃ u : State, step (s.withFetchWord 24 w.toNat) = exec i u
      ∧ u.mem = s.mem ∧ u.wr = s.wr ∧ u.rd = s.rd ∧ u.avail = s.avail ∧ u.tick = s.tick
      ∧ u.savedIe = s.savedIe ∧ u.depth = s.depth ∧ u.faultCode = s.faultCode ∧ u.faultWord = s.faultWord
      ∧ u.params = s.params ∧ u.trace = s.trace ∧ u.rxHeld = s.rxHeld ∧ u.epoch = s.epoch ∧ u.turn = s.turn)

/-- 20_memory.md R61: every operation completes in its own step, whatever the state. For the one form that R61 excepts, RX_ARRIVE
under Stall with the latch full, which has no step in the block, the next state is the model's (log 11): there the block does not
change and the environment keeps the byte. -/
def Obligations.EveryOperationCompletes : Prop :=
  ∀ (i : Instr) (s : State), ∃ t : State, exec i s = .next t

/-- 30_encoding.md R75, 60_exceptions.md R136, R137: an illegal word that is no port-I word raises ILLEGAL_OP and does
nothing else; it is answered only on port C. -/
def Obligations.IllegalWordOnlyRaisesIllegalOp : Prop :=
  ∀ (s : State) (w : Word) (rest : List Event),
    s.trace = .word w :: rest → wordPort w ≠ 0b10#2 → legalWord w = false →
      step s = .next { s with
        trace := rest
        faultCode := if s.faultCode = 0 then 1 else s.faultCode
        faultWord := if s.faultCode = 0 then w else s.faultWord
        rsp := if wordPort w = 0b00#2 then some ⟨true, 0⟩ else none
        pwrEvt := 0 }

/-- The model's (log 9), after 93_implementation_defined.md X1: a port-I word given as an input is refused. -/
def Obligations.PortIWordIsNoInput : Prop :=
  ∀ (s : State) (w : Word) (rest : List Event),
    s.trace = .word w :: rest → wordPort w = 0b10#2 → step s = .refused .portIHasNoInput

/-- 60_exceptions.md R137, R138: what raising a fault does, in whole. -/
def Obligations.RaisingAFaultCapturesTheFirst : Prop :=
  ∀ (s : State) (c : FaultCode) (w : Word),
    s.raiseFault c w = { s with
      faultCode := if s.faultCode = 0 then c.bits else s.faultCode
      faultWord := if s.faultCode = 0 then w else s.faultWord
      rsp := if w.extractLsb' 16 2 = 0b00#2 then some ⟨true, 0x00000000⟩ else none
      pwrEvt := 0 }

/-- 60_exceptions.md R139, R138: once captured, the fault register keeps its record through every step but a reset. -/
def Obligations.FaultRegisterIsSticky : Prop :=
  ∀ (s t : State), step s = .next t → (∀ c e, s.nextEvent ≠ .reset c e) → s.faultCode ≠ 0 →
    t.faultCode = s.faultCode ∧ t.faultWord = s.faultWord

/-! ## FIFO -/

/-- 40_fifo.md R86: RX_ARRIVE with the latch empty, with its words, whatever `ie` and the FIFO are. -/
def Obligations.RxArriveLatchesTheByte : Prop :=
  (∀ d : Byte, decode (0b0100010000#10 ++ d) = .ok (.rxArrive d))
  ∧ ∀ (d : Byte) (s : State), s.rxPend = false →
      exec (.rxArrive d) s = .next { s with rxData := d, rxPend := true, rsp := none, pwrEvt := 0 }

/-- 40_fifo.md R87, by RX_OVERRUN. That the held byte is kept in `rxHeld` is the model's (log 11). -/
def Obligations.RxArriveOnAFullLatchFollowsRxOverrun : Prop :=
  ∀ (d : Byte) (s : State), s.rxPend = true →
    (s.params.rxOverrun = .dropNew → exec (.rxArrive d) s = .next { s with rsp := none, pwrEvt := 0 })
    ∧ (s.params.rxOverrun = .overwrite → exec (.rxArrive d) s = .next { s with rxData := d, rsp := none, pwrEvt := 0 })
    ∧ (s.params.rxOverrun = .stall →
        exec (.rxArrive d) s = .next { s with rxHeld := s.rxHeld ++ [d], rsp := none, pwrEvt := 0 })

/-- 40_fifo.md R87, Stall: a held byte waits while the latch is full and arrives once it is empty. The model's form (log 11). -/
def Obligations.HeldByteWaitsForTheLatch : Prop :=
  ∀ (s : State) (d : Byte) (held : List Byte) (rest : List Event),
    s.trace = .offerHeld :: rest → s.rxHeld = d :: held → s.params.rxOverrun = .stall →
      (s.rxPend = true → step s = .next { s with trace := rest, rsp := none, pwrEvt := 0 })
      ∧ (s.rxPend = false →
          step s = .next { s with
            trace := rest, rxHeld := held, rxData := d, rxPend := true, rsp := none, pwrEvt := 0 })

/-- 40_fifo.md R88: PUSH with a free slot, with its words. Storage changes at `wr` only. -/
def Obligations.PushStoresAtTheWriteIndex : Prop :=
  (∀ d : Byte, decode (0b1000010000#10 ++ d) = .ok (.push d))
  ∧ ∀ (d : Byte) (s : State), 0 < s.avail.toNat →
    ∃ t : State, exec (.push d) s = .next t
      ∧ (∀ a : Nat, t.memRead a = if a = s.wr.toNat then d else s.memRead a)
      ∧ t.wr.toNat = (s.wr.toNat + 1) % 128
      ∧ t.avail.toNat = s.avail.toNat - 1
      ∧ t.full = decide (s.avail.toNat = 1) ∧ (s.avail.toNat ≤ 128 → t.empty = false)
      ∧ t = { s with mem := t.mem, wr := t.wr, avail := t.avail, rsp := none, pwrEvt := 0 }

/-- 40_fifo.md R89: PUSH on a full FIFO drops the byte: no state changes, nothing records it. -/
def Obligations.PushOnAFullFifoChangesNothing : Prop :=
  ∀ (d : Byte) (s : State), s.avail.toNat = 0 →
    exec (.push d) s = .next { s with rsp := none, pwrEvt := 0 }

/-- 40_fifo.md R90: POP with a byte, with its word. -/
def Obligations.PopReturnsTheOldestByte : Prop :=
  decode 0x01000#18 = .ok .pop
  ∧ ∀ s : State, s.avail.toNat < 128 →
    ∃ (t : State) (v : RspVal), exec .pop s = .next t
      ∧ v.toNat = 0x100 + (s.memRead s.rd.toNat).toNat
      ∧ t.rd.toNat = (s.rd.toNat + 1) % 128
      ∧ t.avail.toNat = s.avail.toNat + 1
      ∧ t.empty = decide (s.avail.toNat = 127) ∧ t.full = false
      ∧ t = { s with rd := t.rd, avail := t.avail, rsp := some ⟨false, v⟩, pwrEvt := 0 }

/-- 40_fifo.md R91: POP on an empty FIFO. For counts above `CAP`, which no run reaches (10_state.md R27), R91 says nothing: that they
do the same is the model's (log 17), from the else branch of R90. -/
def Obligations.PopOnAnEmptyFifoFindsNothing : Prop :=
  ∀ s : State, 128 ≤ s.avail.toNat →
    exec .pop s = .next { s with rsp := some ⟨false, 0x00000000⟩, pwrEvt := 0 }

/-- 40_fifo.md R92: STATUS, with its word. -/
def Obligations.StatusReportsTheFillState : Prop :=
  decode 0x02000#18 = .ok .status
  ∧ ∀ s : State, ∃ v : RspVal,
      exec .status s = .next { s with rsp := some ⟨false, v⟩, pwrEvt := 0 }
      ∧ v.toNat = s.avail.toNat + (if s.avail.toNat = 128 then 0x100 else 0) + (if s.avail.toNat = 0 then 0x200 else 0)

/-- 40_fifo.md R93: INIT, with its word; the queue is then empty and nothing but the indices and the count changes. -/
def Obligations.InitEmptiesTheFifoOnly : Prop :=
  decode 0x09000#18 = .ok .init
  ∧ ∀ s : State, ∃ t : State, exec .init s = .next t
      ∧ t = { s with wr := 0, rd := 0, avail := 128, rsp := some ⟨false, 0⟩, pwrEvt := 0 }
      ∧ t.queue = [] ∧ t.empty = true ∧ t.full = false

/-- 40_fifo.md R94: NOP, with its word; it is the only operation that changes no state and responds with a constant. -/
def Obligations.NopOnlyResponds : Prop :=
  decode 0x00000#18 = .ok .nop
  ∧ (∀ s : State, exec .nop s = .next { s with rsp := some ⟨false, 0⟩, pwrEvt := 0 })
  ∧ (∀ (i : Instr) (v : RspVal),
      (∀ s : State, exec i s = .next { s with rsp := some ⟨false, v⟩, pwrEvt := 0 }) → i = .nop)

/-- 10_state.md R29: from a sound state, one step puts what it accepts at the end of the queue and takes what it returns
from its front; INIT and reset empty it. -/
def Obligations.EveryStepIsAQueueStep : Prop :=
  ∀ (s t : State), s.Inv → step s = .next t →
    (s.nextEvent.emptiesFifo = true → t.queue = [])
    ∧ (s.nextEvent.emptiesFifo = false → s.queue ++ s.acceptedNext = s.returnedNext ++ t.queue)

/-- 40_fifo.md R95, 20_memory.md R58: over any run without INIT or reset, the bytes in the queue and the bytes accepted are,
in order, the bytes returned and the bytes left. -/
def Obligations.BytesAreReturnedInTheOrderAccepted : Prop :=
  ∀ (k : Nat) (s t : State), s.Inv →
    (∀ ev, ev ∈ s.trace.take k → ev.emptiesFifo = false) →
    Sys2Proof.core.run k s = .next t →
      s.queue ++ acceptedIn k s = returnedIn k s ++ t.queue

/-- 40_fifo.md R99: from a sound state nothing a step does depends on the unspecified bytes of storage (the reset epoch
selects them, log 2), and none on the bytes that INIT or a POP left outside the queue (93_implementation_defined.md U2): from storage
that differs outside the queue only, the same step leads to the same state but for entries that differed before, and to the same
queue. None depends on the latch byte while nothing is latched (93_implementation_defined.md U3). -/
def Obligations.UnspecifiedBytesAreUnobservable : Prop :=
  (∀ (s t : State) (e : Nat), s.Inv → (∀ c p, s.nextEvent ≠ .reset c p) → step s = .next t →
    step { s with epoch := e } = .next { t with epoch := e })
  ∧ (∀ (s t : State) (m : Memory), s.Inv →
    (∀ k, k < s.used → ({ s with mem := m } : State).memRead (s.slot k) = s.memRead (s.slot k)) → step s = .next t →
    ∃ u : State, step { s with mem := m } = .next u ∧ u = { t with mem := u.mem } ∧ u.queue = t.queue
      ∧ ∀ a, ({ s with mem := m } : State).memRead a = s.memRead a → u.memRead a = t.memRead a)
  ∧ (∀ (s t : State) (d : Byte), s.rxPend = false → step s = .next t →
    ∃ u : State, step { s with rxData := d } = .next u
      ∧ (t.rxPend = true → u = t) ∧ { u with rxData := t.rxData } = t)

/-- 20_memory.md R47, R64: the one step that writes storage is an RX delivery, and it writes the entry at `wr` only. Reset
makes all of it unspecified (10_state.md R43). -/
def Obligations.OnlyAnRxDeliveryWritesStorage : Prop :=
  ∀ (s t : State), step s = .next t → (∀ c e, s.nextEvent ≠ .reset c e) →
    s.nextEvent ≠ .deliver .rx → ∀ a : Nat, t.memRead a = s.memRead a

/-! ## Critical sections -/

/-- 41_critical_section.md R101: CS_BEGIN below depth 255, with its word. -/
def Obligations.CsBeginMasksAndNests : Prop :=
  decode 0x03000#18 = .ok .csBegin
  ∧ ∀ s : State, s.depth.toNat < 255 → ∃ (t : State) (v : RspVal), exec .csBegin s = .next t
      ∧ t.depth.toNat = s.depth.toNat + 1
      ∧ v.toNat = (s.depth.toNat + 1) * 0x100 + s.ie.toNat
      ∧ t = { s with
          savedIe := if s.depth.toNat = 0 then s.ie else s.savedIe
          ie := false, depth := t.depth, rsp := some ⟨false, v⟩, pwrEvt := 0 }

/-- 41_critical_section.md R102: CS_BEGIN at depth 255 raises CS_OVERFLOW (code 3) and changes no CSM state. -/
def Obligations.CsBeginAtTheDepthLimitFaults : Prop :=
  ∀ s : State, s.depth.toNat = 255 →
    exec .csBegin s = .next { s with
      faultCode := if s.faultCode = 0 then 3 else s.faultCode
      faultWord := if s.faultCode = 0 then 0x03000#18 else s.faultWord
      rsp := some ⟨true, 0⟩, pwrEvt := 0 }

/-- 41_critical_section.md R103: CS_END in a section, with its word. -/
def Obligations.CsEndUnnestsAndRestores : Prop :=
  decode 0x04000#18 = .ok .csEnd
  ∧ ∀ s : State, 0 < s.depth.toNat → ∃ (t : State) (v : RspVal), exec .csEnd s = .next t
      ∧ t.depth.toNat = s.depth.toNat - 1
      ∧ t.ie = (if s.depth.toNat = 1 then s.savedIe else false)
      ∧ v.toNat = (s.depth.toNat - 1) * 0x100 + t.ie.toNat
      ∧ t = { s with ie := t.ie, depth := t.depth, rsp := some ⟨false, v⟩, pwrEvt := 0 }

/-- 41_critical_section.md R104: CS_END at depth 0 raises CS_UNDERFLOW (code 2) and changes no CSM state. -/
def Obligations.CsEndOutsideASectionFaults : Prop :=
  ∀ s : State, s.depth.toNat = 0 →
    exec .csEnd s = .next { s with
      faultCode := if s.faultCode = 0 then 2 else s.faultCode
      faultWord := if s.faultCode = 0 then 0x04000#18 else s.faultWord
      rsp := some ⟨true, 0⟩, pwrEvt := 0 }

/-- 41_critical_section.md R106, R107: the two enables outside a section, with their words. -/
def Obligations.IntEnableAndDisableSetTheMask : Prop :=
  decode 0x05000#18 = .ok .intEnable ∧ decode 0x06000#18 = .ok .intDisable
  ∧ ∀ s : State, s.depth.toNat = 0 →
      exec .intEnable s = .next { s with ie := true, rsp := some ⟨false, 0⟩, pwrEvt := 0 }
      ∧ exec .intDisable s = .next { s with ie := false, rsp := some ⟨false, 0⟩, pwrEvt := 0 }

/-- 41_critical_section.md R108: the two enables inside a section raise IE_IN_CS (code 4) and change neither `ie` nor
`saved_ie`. -/
def Obligations.IntEnableAndDisableFaultInASection : Prop :=
  ∀ s : State, s.depth.toNat ≠ 0 →
    exec .intEnable s = .next { s with
      faultCode := if s.faultCode = 0 then 4 else s.faultCode
      faultWord := if s.faultCode = 0 then 0x05000#18 else s.faultWord
      rsp := some ⟨true, 0⟩, pwrEvt := 0 }
    ∧ exec .intDisable s = .next { s with
      faultCode := if s.faultCode = 0 then 4 else s.faultCode
      faultWord := if s.faultCode = 0 then 0x06000#18 else s.faultWord
      rsp := some ⟨true, 0⟩, pwrEvt := 0 }

/-- 41_critical_section.md R109: CS_STATUS, field by field, with its word. -/
def Obligations.CsStatusReportsEveryField : Prop :=
  decode 0x07000#18 = .ok .csStatus
  ∧ ∀ s : State, ∃ v : RspVal,
      exec .csStatus s = .next { s with rsp := some ⟨false, v⟩, pwrEvt := 0 }
      ∧ v.getLsbD 0 = s.ie ∧ v.getLsbD 1 = s.savedIe ∧ v.extractLsb' 2 2 = 0
      ∧ v.getLsbD 4 = s.rxPend ∧ v.getLsbD 5 = s.tickPend ∧ v.getLsbD 6 = decide (s.pwrStat ≠ 0) ∧ v.getLsbD 7 = false
      ∧ v.extractLsb' 8 8 = s.depth ∧ v.extractLsb' 16 4 = s.faultCode ∧ v.extractLsb' 20 4 = s.pwrStat
      ∧ v.extractLsb' 24 8 = 0

/-- 41_critical_section.md R110: FAULT_READ, field by field, with its word; it clears nothing. -/
def Obligations.FaultReadReportsTheFirstFault : Prop :=
  decode 0x0A000#18 = .ok .faultRead
  ∧ ∀ s : State, ∃ v : RspVal,
      exec .faultRead s = .next { s with rsp := some ⟨false, v⟩, pwrEvt := 0 }
      ∧ v.extractLsb' 0 18 = s.faultWord ∧ v.extractLsb' 18 6 = 0 ∧ v.extractLsb' 24 4 = s.faultCode
      ∧ v.extractLsb' 28 4 = 0

/-- 41_critical_section.md R105: a balanced sequence of CS_BEGINs and CS_ENDs, never deeper than 255, begun outside a section
ends outside one with `ie` as it was; after every part of it that leaves a section open, `ie` is 0 and no delivery is enabled. -/
def Obligations.BalancedNestRestoresTheEnable : Prop :=
  ∀ (cmds : List Bool) (s : State) (rest : List Event),
    s.depth = 0 → s.trace = cmds.map (fun b => .word (nestWord b)) ++ rest → nestDepth 0 cmds = some 0 →
      (∃ t : State, Sys2Proof.core.run cmds.length s = .next t
        ∧ t.depth = 0 ∧ t.ie = s.ie ∧ t.trace = rest ∧ t.faultCode = s.faultCode ∧ t.queue = s.queue)
      ∧ (∀ (k n : Nat), k ≤ cmds.length → nestDepth 0 (cmds.take k) = some n → 0 < n →
          ∃ t : State, Sys2Proof.core.run k s = .next t ∧ t.depth.toNat = n ∧ t.ie = false
            ∧ ∀ src, t.mayDeliver src = false)

/-- 30_encoding.md R79: READ_BYTE is CS_BEGIN; POP; CS_END. Outside a section its three steps leave the enable and the depth
as they were, the second responds as POP does in the state before, and no fault is raised. -/
def Obligations.ReadByteIsAPopInASection : Prop :=
  assembleLine "READ_BYTE" = some [.word 0x03000#18, .word 0x01000#18, .word 0x04000#18]
  ∧ ∀ (s : State) (rest : List Event), s.depth = 0 →
      s.trace = .word 0x03000#18 :: .word 0x01000#18 :: .word 0x04000#18 :: rest →
        ∃ p t2 t3 : State, exec .pop s = .next p
          ∧ Sys2Proof.core.run 2 s = .next t2 ∧ t2.rsp = p.rsp ∧ t2.ie = false ∧ t2.depth = 1
          ∧ Sys2Proof.core.run 3 s = .next t3
          ∧ t3.ie = s.ie ∧ t3.depth = 0 ∧ t3.faultCode = s.faultCode ∧ t3.rd = p.rd ∧ t3.avail = p.avail
          ∧ t3.mem = s.mem ∧ t3.wr = s.wr ∧ t3.trace = rest

/-- 41_critical_section.md R114: outside a reset, `ie` changes only through CS_BEGIN, CS_END, INT_ENABLE, INT_DISABLE, and
`depth` and `saved_ie` only through CS_BEGIN, CS_END; a step that responds with a fault changes none of them. -/
def Obligations.OnlyCsmCommandsChangeTheMask : Prop :=
  ∀ (s t : State), step s = .next t → (∀ c e, s.nextEvent ≠ .reset c e) →
    (t.ie ≠ s.ie → s.nextEvent = .word 0x03000#18 ∨ s.nextEvent = .word 0x04000#18
      ∨ s.nextEvent = .word 0x05000#18 ∨ s.nextEvent = .word 0x06000#18)
    ∧ (t.depth ≠ s.depth ∨ t.savedIe ≠ s.savedIe →
        s.nextEvent = .word 0x03000#18 ∨ s.nextEvent = .word 0x04000#18)
    ∧ (∀ v, t.rsp = some ⟨true, v⟩ → t.ie = s.ie ∧ t.depth = s.depth ∧ t.savedIe = s.savedIe)

/-! ## Tick unit -/

/-- 42_timer.md R116, R117: TICK_EXPIRE, with its word; a second expiry merges. -/
def Obligations.TickExpireSetsOnePendingBit : Prop :=
  decode 0x12000#18 = .ok .tickExpire
  ∧ (∀ s : State, exec .tickExpire s = .next { s with tickPend := true, rsp := none, pwrEvt := 0 })
  ∧ (∀ s : State, s.tickPend = true → exec .tickExpire s = .next { s with rsp := none, pwrEvt := 0 })

/-- 42_timer.md R118, R119: TICK_INC, with its word; modulo 2^32, with no flag or fault. -/
def Obligations.TickIncAddsOneModulo : Prop :=
  decode 0x22000#18 = .ok .tickInc
  ∧ ∀ s : State, ∃ t : State, exec .tickInc s = .next t
      ∧ t.tick.toNat = (s.tick.toNat + 1) % 2 ^ 32
      ∧ t = { s with tick := t.tick, rsp := none, pwrEvt := 0 }

/-- 42_timer.md R120: TICK_READ, with its word; all 32 bits, nothing changes. -/
def Obligations.TickReadReturnsTheCounter : Prop :=
  decode 0x08000#18 = .ok .tickRead
  ∧ ∀ s : State, exec .tickRead s = .next { s with rsp := some ⟨false, s.tick⟩, pwrEvt := 0 }

/-- 42_timer.md R121: over any run without reset the counter advances by the number of tick deliveries, modulo 2^32. -/
def Obligations.TickCountsItsDeliveries : Prop :=
  ∀ (k : Nat) (s t : State), (∀ ev, ev ∈ s.trace.take k → ev.isReset = false) → Sys2Proof.core.run k s = .next t →
    t.tick.toNat = (s.tick.toNat + ticksDeliveredIn k s) % 2 ^ 32

/-! ## Power-event unit -/

/-- 43_power_events.md R126: PWR_SET, with its words, sets the bits of its mask and keeps the others. -/
def Obligations.PwrSetRaisesItsConditions : Prop :=
  (∀ m : PwrMask, decode (0b01001100000000#14 ++ m) = .ok (.pwrSet m))
  ∧ ∀ (m : PwrMask) (s : State), ∃ t : State, exec (.pwrSet m) s = .next t
    ∧ (∀ i : Nat, t.pwrStat.getLsbD i = (s.pwrStat.getLsbD i || m.getLsbD i))
    ∧ (t.pending .pwr = true ↔ t.pwrStat ≠ 0)
    ∧ t = { s with pwrStat := t.pwrStat, rsp := none, pwrEvt := 0 }

/-- 43_power_events.md R127: a PWR_SET word with a high mask bit raises ILLEGAL_OP and changes no condition bit. -/
def Obligations.PwrSetWithHighBitsIsIllegal : Prop :=
  ∀ (s : State) (w : Word) (rest : List Event), s.trace = .word w :: rest →
    w.extractLsb' 16 2 = 0b01#2 → w.extractLsb' 12 4 = 0x3#4 → w.extractLsb' 4 4 ≠ 0#4 →
      step s = .next { s with
        trace := rest
        faultCode := if s.faultCode = 0 then 1 else s.faultCode
        faultWord := if s.faultCode = 0 then w else s.faultWord
        rsp := none, pwrEvt := 0 }

/-- 43_power_events.md R128, R131: PWR_SERVICE, with its word: it emits every raised condition and clears them all. -/
def Obligations.PwrServiceEmitsAndClears : Prop :=
  decode 0x23000#18 = .ok .pwrService
  ∧ ∀ s : State, exec .pwrService s = .next { s with pwrStat := 0b0000, rsp := none, pwrEvt := s.pwrStat }

/-- 43_power_events.md R130: writing a value back clears exactly its 1 bits. -/
def Obligations.WriteBackClearsExactlyItsOnes : Prop :=
  ∀ (stat v : PwrMask) (i : Nat), (writeOneToClear stat v).getLsbD i = (stat.getLsbD i && !v.getLsbD i)

/-! ## Delivery -/

/-- 60_exceptions.md R143, R146, 41_critical_section.md R111: a delivery step of `src` exists exactly where `ie` is 1, `src` is
pending and, under a fixed list, no source that stands before it is deliverable. Elsewhere the model stops (log 8). -/
def Obligations.DeliveryNeedsEnableAndTurn : Prop :=
  ∀ (s : State) (src : Source) (rest : List Event), s.trace = .deliver src :: rest →
    ((∃ t, step s = .next t) ↔
      s.ie = true ∧ s.pending src = true
      ∧ (∀ p, s.params.irqOrder = .fixed p → ∀ pre post, Priority.order p = pre ++ src :: post →
          ∀ x, x ∈ pre → s.pending x = false))
    ∧ ((¬∃ t, step s = .next t) → step s = .fault (.deliveryNotEnabled src))

/-- 60_exceptions.md R145, 41_critical_section.md R113: each delivery's word and whole effect, in one step: it clears its source and
performs its action, with no response and with `ie`, `saved_ie` and `depth` untouched. -/
def Obligations.DeliveryPerformsItsAction : Prop :=
  (∀ s : State, encode (deliveryInstr .rx s) = 0b1000010000#10 ++ s.rxData ∧ encode (deliveryInstr .tick s) = 0x22000#18
    ∧ encode (deliveryInstr .pwr s) = 0x23000#18)
  ∧ ∀ (s : State) (rest : List Event),
    (s.trace = .deliver .rx :: rest → s.mayDeliver .rx = true → 0 < s.avail.toNat →
      ∃ t, step s = .next t
        ∧ (∀ a, t.memRead a = if a = s.wr.toNat then s.rxData else s.memRead a)
        ∧ t.wr.toNat = (s.wr.toNat + 1) % 128 ∧ t.avail.toNat = s.avail.toNat - 1
        ∧ t = { s with trace := rest, rxPend := false, mem := t.mem, wr := t.wr, avail := t.avail, rsp := none, pwrEvt := 0 })
    ∧ (s.trace = .deliver .rx :: rest → s.mayDeliver .rx = true → s.avail.toNat = 0 →
      step s = .next { s with trace := rest, rxPend := false, rsp := none, pwrEvt := 0 })
    ∧ (s.trace = .deliver .tick :: rest → s.mayDeliver .tick = true →
      step s = .next { s with trace := rest, tickPend := false, tick := s.tick + 1, rsp := none, pwrEvt := 0 })
    ∧ (s.trace = .deliver .pwr :: rest → s.mayDeliver .pwr = true →
      step s = .next { s with trace := rest, pwrStat := 0, rsp := none, pwrEvt := s.pwrStat })

/-- 60_exceptions.md R146: two deliverable sources may be delivered in either order under `Any`, and the state reached is the
same but for the outputs of the last step. -/
def Obligations.DeliveriesCommute : Prop :=
  ∀ (s : State) (a b : Source) (rest : List Event), a ≠ b → s.params.irqOrder = .any →
    s.deliverable a = true → s.deliverable b = true →
      ∃ t u : State,
        Sys2Proof.core.run 2 { s with trace := .deliver a :: .deliver b :: rest } = .next t
        ∧ Sys2Proof.core.run 2 { s with trace := .deliver b :: .deliver a :: rest } = .next u
        ∧ { t with rsp := none, pwrEvt := 0 } = ({ u with rsp := none, pwrEvt := 0 } : State)

/-- 60_exceptions.md R149: POP and an RX delivery in either order. Both orders run; between empty and full they agree; on a
full FIFO pop-then-push keeps the byte and push-then-pop drops it; on an empty FIFO pop-then-push finds nothing and leaves the
byte in the queue, and push-then-pop returns it. -/
def Obligations.PopAndRxDeliveryInEitherOrder : Prop :=
  ∀ (s : State) (rest : List Event), s.mayDeliver .rx = true → s.Inv →
    ∃ p t u : State,
      Sys2Proof.core.run 1 { s with trace := .word 0x01000#18 :: .deliver .rx :: rest } = .next p
      ∧ Sys2Proof.core.run 2 { s with trace := .word 0x01000#18 :: .deliver .rx :: rest } = .next t
      ∧ Sys2Proof.core.run 2 { s with trace := .deliver .rx :: .word 0x01000#18 :: rest } = .next u
      ∧ (0 < s.avail.toNat → s.avail.toNat < 128 →
          p.rsp = u.rsp ∧ t.queue = u.queue ∧ t.avail = s.avail ∧ u.avail = s.avail)
      ∧ (s.avail.toNat = 0 →
          p.rsp = u.rsp ∧ t.avail.toNat = 0 ∧ u.avail.toNat = 1 ∧ t.queue = u.queue ++ [s.rxData])
      ∧ (s.avail.toNat = 128 →
          p.rsp = some ⟨false, 0x00000000⟩ ∧ u.rsp = some ⟨false, BitVec.ofNat 32 (0x100 + s.rxData.toNat)⟩
          ∧ t.avail.toNat = 127 ∧ t.queue = [s.rxData] ∧ u.avail.toNat = 128 ∧ u.queue = [])

/-- 60_exceptions.md R144: outside a reset, a pending source, and each raised power condition, is cleared only in its own delivery. -/
def Obligations.OnlyItsDeliveryClearsASource : Prop :=
  ∀ (s t : State), step s = .next t → (∀ c e, s.nextEvent ≠ .reset c e) →
    (∀ src, s.pending src = true → t.pending src = false → s.nextEvent = .deliver src)
    ∧ (∀ i, s.pwrStat.getLsbD i = true → t.pwrStat.getLsbD i = false → s.nextEvent = .deliver .pwr)

/-! ## Whole machine -/

/-- 10_state.md R41, 30_encoding.md R80: exactly the words on port C drive the response channel, a PWR delivery drives `pwr_evt`
with the bits it serviced and every other step with 0, and no step depends on the outputs of the step before. -/
def Obligations.OutputsAreDrivenByTheirStepsOnly : Prop :=
  ∀ (s t : State), step s = .next t →
    (t.rsp.isSome = true ↔ ∃ w, s.nextEvent = .word w ∧ w.extractLsb' 16 2 = 0b00#2)
    ∧ (s.nextEvent = .deliver .pwr → t.pwrEvt = s.pwrStat)
    ∧ (s.nextEvent ≠ .deliver .pwr → t.pwrEvt = 0b0000)
    ∧ (∀ (r : Option Response) (e : PwrMask), step { s with rsp := r, pwrEvt := e } = .next t)

/-- 60_exceptions.md R148, weak fairness. In every infinite run of the machine a delivery that stays enabled is taken: after the
trace's end by the model's own step (log 25). In every weakly fair execution of the block, whatever its infinitely many steps are,
each pending source is delivered if `ie` stays 1 and no reset comes. So a run with `ie` = 1 comes to its end (R183). -/
def Obligations.EnabledDeliveriesAreEventuallyTaken : Prop :=
  (∀ st : Nat → State, (∀ n, step (st n) = .next (st (n + 1))) → WeaklyFair (fun n => (st n).nextEvent) st)
  ∧ (∀ (ev : Nat → Event) (st : Nat → State), IsExecution ev st → WeaklyFair ev st →
      ∀ (n : Nat) (src : Source), (st n).pending src = true →
        (∀ m, n ≤ m → (st m).ie = true ∧ (ev m).isReset = false) → ∃ m, n ≤ m ∧ ev m = .deliver src)
  ∧ (∀ s : State, s.trace = [] → s.ie = true →
      ∃ (k : Nat) (t : State), Sys2Proof.core.run k s = .next t ∧ t.runEnded = true)

/-- 30_encoding.md R83: an idle clock performs nothing and drives nothing (the model's form, log 7); so does a step after the trace's
end where no delivery is enabled and no held byte can arrive. -/
def Obligations.IdleClockPerformsNothing : Prop :=
  (∀ (s : State) (rest : List Event), s.trace = .idle :: rest →
    step s = .next { s with trace := rest, rsp := none, pwrEvt := 0 })
  ∧ (∀ s : State, s.trace = [] → (∀ src, s.deliverable src = false) → (s.rxPend = true ∨ s.rxHeld = []) →
    step s = .next { s with rsp := none, pwrEvt := 0 })

/-- 10_state.md R45: no step changes the parameters. -/
def Obligations.ParametersAreFixed : Prop :=
  ∀ (s t : State), step s = .next t → t.params = s.params

/-- 20_memory.md R55: the operations it lists, performed twice in a row, leave the state of once, but for the outputs; the
environment's held bytes are the model's own (log 11). -/
def Obligations.ListedOperationsAreIdempotent : Prop :=
  ∀ (i : Instr) (s t : State), (i ≠ .pop ∧ i ≠ .csBegin ∧ i ≠ .csEnd ∧ i ≠ .tickInc ∧ ∀ d, i ≠ .push d) →
    exec i s = .next t →
      ∃ u : State, exec i t = .next u ∧ u = { t with rsp := u.rsp, pwrEvt := u.pwrEvt, rxHeld := u.rxHeld }

/-- 70_reset_and_hazards.md R170, 10_state.md R43: a reset step from any state, whatever words share its clock. The bytes of
`mem` and `rx_data` are unspecified, so nothing is said of them. -/
def Obligations.HardwareResetSetsEveryElement : Prop :=
  ∀ (s : State) (c e : Option (BitVec 16)) (rest : List Event), s.trace = .reset c e :: rest →
    ∃ t : State, step s = .next t
      ∧ t.wr = 0 ∧ t.rd = 0 ∧ t.avail.toNat = 128 ∧ t.ie = false ∧ t.savedIe = false ∧ t.depth = 0
      ∧ t.rxPend = false ∧ t.tickPend = false ∧ t.tick = 0 ∧ t.pwrStat = 0 ∧ t.faultCode = 0 ∧ t.faultWord = 0
      ∧ t.rsp = none ∧ t.pwrEvt = 0 ∧ t.queue = [] ∧ ∀ src, t.pending src = false

/-- The model's (log 4, 12), with 10_state.md R45: a reset keeps what lies outside the block, and the unspecified bytes after it
are those of the next epoch. -/
def Obligations.ResetKeepsWhatIsOutsideTheBlock : Prop :=
  ∀ (s : State) (c e : Option (BitVec 16)) (rest : List Event), s.trace = .reset c e :: rest →
    ∃ t : State, step s = .next t
      ∧ t.params = s.params ∧ t.trace = rest ∧ t.rxHeld = s.rxHeld ∧ t.epoch = s.epoch + 1 ∧ t.turn = s.turn
      ∧ t.rxData = Config.freeRxData (s.epoch + 1)
      ∧ ∀ a, t.memRead a = Config.freeMemByte (s.epoch + 1) a

/-- 10_state.md R43, for the machine the host starts from. -/
def Obligations.ResetStateHoldsTheResetValues : Prop :=
  State.reset.wr = 0 ∧ State.reset.rd = 0 ∧ State.reset.avail = 128 ∧ State.reset.ie = false
  ∧ State.reset.savedIe = false ∧ State.reset.depth = 0 ∧ State.reset.rxPend = false ∧ State.reset.tickPend = false
  ∧ State.reset.tick = 0 ∧ State.reset.pwrStat = 0 ∧ State.reset.faultCode = 0 ∧ State.reset.faultWord = 0

/-- 10_state.md R27, R28, R34, 60_exceptions.md R136, R137, with the model's canonical storage: the reset state is sound. -/
def Obligations.ResetStateIsSound : Prop := State.reset.Inv

/-- 10_state.md R27, R28, R34, 40_fifo.md R96, R99, 60_exceptions.md R136, R137: every step of every agent from a sound state leads to a
sound state. -/
def Obligations.EveryStepKeepsSoundness : Prop :=
  ∀ (s t : State), s.Inv → step s = .next t → t.Inv

/-- 20_memory.md R59: from a step inside a section to the next, while the section stays open, no delivery occurs, `ie` stays 0
and `saved_ie` keeps the outermost enable; so over any run of `k` steps whose states all lie inside a section. -/
def Obligations.NoDeliveryInsideASection : Prop :=
  ∀ (k : Nat) (s t : State), s.MaskedInSection →
    (∀ j, j ≤ k → ∃ u, Sys2Proof.core.run j s = .next u ∧ u.depth ≠ 0) → Sys2Proof.core.run k s = .next t →
      t.ie = false ∧ t.savedIe = s.savedIe
      ∧ (∀ (j : Nat) (u : State), j < k → Sys2Proof.core.run j s = .next u → ∀ src, u.nextEvent ≠ .deliver src)
      ∧ acceptedIn k s = [] ∧ t.tick = s.tick
end

