-- ==== Sys2Proof/Laws/State.lean ====
section
/-! SUPPORT. One lemma per field per update of the state, so that no later proof unfolds a record update. -/

namespace Sys2Proof.Machine

@[simp] theorem State.respond_mem (s : State) (v : RspVal) : (s.respond v).mem = s.mem := rfl
@[simp] theorem State.respond_wr (s : State) (v : RspVal) : (s.respond v).wr = s.wr := rfl
@[simp] theorem State.respond_rd (s : State) (v : RspVal) : (s.respond v).rd = s.rd := rfl
@[simp] theorem State.respond_avail (s : State) (v : RspVal) : (s.respond v).avail = s.avail := rfl
@[simp] theorem State.respond_ie (s : State) (v : RspVal) : (s.respond v).ie = s.ie := rfl
@[simp] theorem State.respond_savedIe (s : State) (v : RspVal) : (s.respond v).savedIe = s.savedIe := rfl
@[simp] theorem State.respond_depth (s : State) (v : RspVal) : (s.respond v).depth = s.depth := rfl
@[simp] theorem State.respond_rxPend (s : State) (v : RspVal) : (s.respond v).rxPend = s.rxPend := rfl
@[simp] theorem State.respond_rxData (s : State) (v : RspVal) : (s.respond v).rxData = s.rxData := rfl
@[simp] theorem State.respond_tickPend (s : State) (v : RspVal) : (s.respond v).tickPend = s.tickPend := rfl
@[simp] theorem State.respond_tick (s : State) (v : RspVal) : (s.respond v).tick = s.tick := rfl
@[simp] theorem State.respond_pwrStat (s : State) (v : RspVal) : (s.respond v).pwrStat = s.pwrStat := rfl
@[simp] theorem State.respond_faultCode (s : State) (v : RspVal) : (s.respond v).faultCode = s.faultCode := rfl
@[simp] theorem State.respond_faultWord (s : State) (v : RspVal) : (s.respond v).faultWord = s.faultWord := rfl
@[simp] theorem State.respond_rsp (s : State) (v : RspVal) : (s.respond v).rsp = some ⟨false, v⟩ := rfl
@[simp] theorem State.respond_pwrEvt (s : State) (v : RspVal) : (s.respond v).pwrEvt = 0 := rfl
@[simp] theorem State.respond_params (s : State) (v : RspVal) : (s.respond v).params = s.params := rfl
@[simp] theorem State.respond_trace (s : State) (v : RspVal) : (s.respond v).trace = s.trace := rfl
@[simp] theorem State.respond_rxHeld (s : State) (v : RspVal) : (s.respond v).rxHeld = s.rxHeld := rfl
@[simp] theorem State.respond_epoch (s : State) (v : RspVal) : (s.respond v).epoch = s.epoch := rfl
@[simp] theorem State.respond_turn (s : State) (v : RspVal) : (s.respond v).turn = s.turn := rfl

@[simp] theorem State.respondError_mem (s : State) : (s.respondError).mem = s.mem := rfl
@[simp] theorem State.respondError_wr (s : State) : (s.respondError).wr = s.wr := rfl
@[simp] theorem State.respondError_rd (s : State) : (s.respondError).rd = s.rd := rfl
@[simp] theorem State.respondError_avail (s : State) : (s.respondError).avail = s.avail := rfl
@[simp] theorem State.respondError_ie (s : State) : (s.respondError).ie = s.ie := rfl
@[simp] theorem State.respondError_savedIe (s : State) : (s.respondError).savedIe = s.savedIe := rfl
@[simp] theorem State.respondError_depth (s : State) : (s.respondError).depth = s.depth := rfl
@[simp] theorem State.respondError_rxPend (s : State) : (s.respondError).rxPend = s.rxPend := rfl
@[simp] theorem State.respondError_rxData (s : State) : (s.respondError).rxData = s.rxData := rfl
@[simp] theorem State.respondError_tickPend (s : State) : (s.respondError).tickPend = s.tickPend := rfl
@[simp] theorem State.respondError_tick (s : State) : (s.respondError).tick = s.tick := rfl
@[simp] theorem State.respondError_pwrStat (s : State) : (s.respondError).pwrStat = s.pwrStat := rfl
@[simp] theorem State.respondError_faultCode (s : State) : (s.respondError).faultCode = s.faultCode := rfl
@[simp] theorem State.respondError_faultWord (s : State) : (s.respondError).faultWord = s.faultWord := rfl
@[simp] theorem State.respondError_rsp (s : State) : (s.respondError).rsp = some ⟨true, 0⟩ := rfl
@[simp] theorem State.respondError_pwrEvt (s : State) : (s.respondError).pwrEvt = 0 := rfl
@[simp] theorem State.respondError_params (s : State) : (s.respondError).params = s.params := rfl
@[simp] theorem State.respondError_trace (s : State) : (s.respondError).trace = s.trace := rfl
@[simp] theorem State.respondError_rxHeld (s : State) : (s.respondError).rxHeld = s.rxHeld := rfl
@[simp] theorem State.respondError_epoch (s : State) : (s.respondError).epoch = s.epoch := rfl
@[simp] theorem State.respondError_turn (s : State) : (s.respondError).turn = s.turn := rfl

@[simp] theorem State.silent_mem (s : State) : (s.silent).mem = s.mem := rfl
@[simp] theorem State.silent_wr (s : State) : (s.silent).wr = s.wr := rfl
@[simp] theorem State.silent_rd (s : State) : (s.silent).rd = s.rd := rfl
@[simp] theorem State.silent_avail (s : State) : (s.silent).avail = s.avail := rfl
@[simp] theorem State.silent_ie (s : State) : (s.silent).ie = s.ie := rfl
@[simp] theorem State.silent_savedIe (s : State) : (s.silent).savedIe = s.savedIe := rfl
@[simp] theorem State.silent_depth (s : State) : (s.silent).depth = s.depth := rfl
@[simp] theorem State.silent_rxPend (s : State) : (s.silent).rxPend = s.rxPend := rfl
@[simp] theorem State.silent_rxData (s : State) : (s.silent).rxData = s.rxData := rfl
@[simp] theorem State.silent_tickPend (s : State) : (s.silent).tickPend = s.tickPend := rfl
@[simp] theorem State.silent_tick (s : State) : (s.silent).tick = s.tick := rfl
@[simp] theorem State.silent_pwrStat (s : State) : (s.silent).pwrStat = s.pwrStat := rfl
@[simp] theorem State.silent_faultCode (s : State) : (s.silent).faultCode = s.faultCode := rfl
@[simp] theorem State.silent_faultWord (s : State) : (s.silent).faultWord = s.faultWord := rfl
@[simp] theorem State.silent_rsp (s : State) : (s.silent).rsp = none := rfl
@[simp] theorem State.silent_pwrEvt (s : State) : (s.silent).pwrEvt = 0 := rfl
@[simp] theorem State.silent_params (s : State) : (s.silent).params = s.params := rfl
@[simp] theorem State.silent_trace (s : State) : (s.silent).trace = s.trace := rfl
@[simp] theorem State.silent_rxHeld (s : State) : (s.silent).rxHeld = s.rxHeld := rfl
@[simp] theorem State.silent_epoch (s : State) : (s.silent).epoch = s.epoch := rfl
@[simp] theorem State.silent_turn (s : State) : (s.silent).turn = s.turn := rfl

@[simp] theorem State.emitPwrEvt_mem (s : State) (v : PwrMask) : (s.emitPwrEvt v).mem = s.mem := rfl
@[simp] theorem State.emitPwrEvt_wr (s : State) (v : PwrMask) : (s.emitPwrEvt v).wr = s.wr := rfl
@[simp] theorem State.emitPwrEvt_rd (s : State) (v : PwrMask) : (s.emitPwrEvt v).rd = s.rd := rfl
@[simp] theorem State.emitPwrEvt_avail (s : State) (v : PwrMask) : (s.emitPwrEvt v).avail = s.avail := rfl
@[simp] theorem State.emitPwrEvt_ie (s : State) (v : PwrMask) : (s.emitPwrEvt v).ie = s.ie := rfl
@[simp] theorem State.emitPwrEvt_savedIe (s : State) (v : PwrMask) : (s.emitPwrEvt v).savedIe = s.savedIe := rfl
@[simp] theorem State.emitPwrEvt_depth (s : State) (v : PwrMask) : (s.emitPwrEvt v).depth = s.depth := rfl
@[simp] theorem State.emitPwrEvt_rxPend (s : State) (v : PwrMask) : (s.emitPwrEvt v).rxPend = s.rxPend := rfl
@[simp] theorem State.emitPwrEvt_rxData (s : State) (v : PwrMask) : (s.emitPwrEvt v).rxData = s.rxData := rfl
@[simp] theorem State.emitPwrEvt_tickPend (s : State) (v : PwrMask) : (s.emitPwrEvt v).tickPend = s.tickPend := rfl
@[simp] theorem State.emitPwrEvt_tick (s : State) (v : PwrMask) : (s.emitPwrEvt v).tick = s.tick := rfl
@[simp] theorem State.emitPwrEvt_pwrStat (s : State) (v : PwrMask) : (s.emitPwrEvt v).pwrStat = s.pwrStat := rfl
@[simp] theorem State.emitPwrEvt_faultCode (s : State) (v : PwrMask) : (s.emitPwrEvt v).faultCode = s.faultCode := rfl
@[simp] theorem State.emitPwrEvt_faultWord (s : State) (v : PwrMask) : (s.emitPwrEvt v).faultWord = s.faultWord := rfl
@[simp] theorem State.emitPwrEvt_rsp (s : State) (v : PwrMask) : (s.emitPwrEvt v).rsp = none := rfl
@[simp] theorem State.emitPwrEvt_pwrEvt (s : State) (v : PwrMask) : (s.emitPwrEvt v).pwrEvt = v := rfl
@[simp] theorem State.emitPwrEvt_params (s : State) (v : PwrMask) : (s.emitPwrEvt v).params = s.params := rfl
@[simp] theorem State.emitPwrEvt_trace (s : State) (v : PwrMask) : (s.emitPwrEvt v).trace = s.trace := rfl
@[simp] theorem State.emitPwrEvt_rxHeld (s : State) (v : PwrMask) : (s.emitPwrEvt v).rxHeld = s.rxHeld := rfl
@[simp] theorem State.emitPwrEvt_epoch (s : State) (v : PwrMask) : (s.emitPwrEvt v).epoch = s.epoch := rfl
@[simp] theorem State.emitPwrEvt_turn (s : State) (v : PwrMask) : (s.emitPwrEvt v).turn = s.turn := rfl

@[simp] theorem State.memWrite_mem (s : State) (a : Nat) (b : Byte) : (s.memWrite a b).mem = Memory.write s.mem a b := rfl
@[simp] theorem State.memWrite_wr (s : State) (a : Nat) (b : Byte) : (s.memWrite a b).wr = s.wr := rfl
@[simp] theorem State.memWrite_rd (s : State) (a : Nat) (b : Byte) : (s.memWrite a b).rd = s.rd := rfl
@[simp] theorem State.memWrite_avail (s : State) (a : Nat) (b : Byte) : (s.memWrite a b).avail = s.avail := rfl
@[simp] theorem State.memWrite_ie (s : State) (a : Nat) (b : Byte) : (s.memWrite a b).ie = s.ie := rfl
@[simp] theorem State.memWrite_savedIe (s : State) (a : Nat) (b : Byte) : (s.memWrite a b).savedIe = s.savedIe := rfl
@[simp] theorem State.memWrite_depth (s : State) (a : Nat) (b : Byte) : (s.memWrite a b).depth = s.depth := rfl
@[simp] theorem State.memWrite_rxPend (s : State) (a : Nat) (b : Byte) : (s.memWrite a b).rxPend = s.rxPend := rfl
@[simp] theorem State.memWrite_rxData (s : State) (a : Nat) (b : Byte) : (s.memWrite a b).rxData = s.rxData := rfl
@[simp] theorem State.memWrite_tickPend (s : State) (a : Nat) (b : Byte) : (s.memWrite a b).tickPend = s.tickPend := rfl
@[simp] theorem State.memWrite_tick (s : State) (a : Nat) (b : Byte) : (s.memWrite a b).tick = s.tick := rfl
@[simp] theorem State.memWrite_pwrStat (s : State) (a : Nat) (b : Byte) : (s.memWrite a b).pwrStat = s.pwrStat := rfl
@[simp] theorem State.memWrite_faultCode (s : State) (a : Nat) (b : Byte) : (s.memWrite a b).faultCode = s.faultCode := rfl
@[simp] theorem State.memWrite_faultWord (s : State) (a : Nat) (b : Byte) : (s.memWrite a b).faultWord = s.faultWord := rfl
@[simp] theorem State.memWrite_rsp (s : State) (a : Nat) (b : Byte) : (s.memWrite a b).rsp = s.rsp := rfl
@[simp] theorem State.memWrite_pwrEvt (s : State) (a : Nat) (b : Byte) : (s.memWrite a b).pwrEvt = s.pwrEvt := rfl
@[simp] theorem State.memWrite_params (s : State) (a : Nat) (b : Byte) : (s.memWrite a b).params = s.params := rfl
@[simp] theorem State.memWrite_trace (s : State) (a : Nat) (b : Byte) : (s.memWrite a b).trace = s.trace := rfl
@[simp] theorem State.memWrite_rxHeld (s : State) (a : Nat) (b : Byte) : (s.memWrite a b).rxHeld = s.rxHeld := rfl
@[simp] theorem State.memWrite_epoch (s : State) (a : Nat) (b : Byte) : (s.memWrite a b).epoch = s.epoch := rfl
@[simp] theorem State.memWrite_turn (s : State) (a : Nat) (b : Byte) : (s.memWrite a b).turn = s.turn := rfl

@[simp] theorem State.captureFault_mem (s : State) (c : FaultCode) (w : Word) : (s.captureFault c w).mem = s.mem := by unfold State.captureFault; split <;> rfl
@[simp] theorem State.captureFault_wr (s : State) (c : FaultCode) (w : Word) : (s.captureFault c w).wr = s.wr := by unfold State.captureFault; split <;> rfl
@[simp] theorem State.captureFault_rd (s : State) (c : FaultCode) (w : Word) : (s.captureFault c w).rd = s.rd := by unfold State.captureFault; split <;> rfl
@[simp] theorem State.captureFault_avail (s : State) (c : FaultCode) (w : Word) : (s.captureFault c w).avail = s.avail := by unfold State.captureFault; split <;> rfl
@[simp] theorem State.captureFault_ie (s : State) (c : FaultCode) (w : Word) : (s.captureFault c w).ie = s.ie := by unfold State.captureFault; split <;> rfl
@[simp] theorem State.captureFault_savedIe (s : State) (c : FaultCode) (w : Word) : (s.captureFault c w).savedIe = s.savedIe := by unfold State.captureFault; split <;> rfl
@[simp] theorem State.captureFault_depth (s : State) (c : FaultCode) (w : Word) : (s.captureFault c w).depth = s.depth := by unfold State.captureFault; split <;> rfl
@[simp] theorem State.captureFault_rxPend (s : State) (c : FaultCode) (w : Word) : (s.captureFault c w).rxPend = s.rxPend := by unfold State.captureFault; split <;> rfl
@[simp] theorem State.captureFault_rxData (s : State) (c : FaultCode) (w : Word) : (s.captureFault c w).rxData = s.rxData := by unfold State.captureFault; split <;> rfl
@[simp] theorem State.captureFault_tickPend (s : State) (c : FaultCode) (w : Word) : (s.captureFault c w).tickPend = s.tickPend := by unfold State.captureFault; split <;> rfl
@[simp] theorem State.captureFault_tick (s : State) (c : FaultCode) (w : Word) : (s.captureFault c w).tick = s.tick := by unfold State.captureFault; split <;> rfl
@[simp] theorem State.captureFault_pwrStat (s : State) (c : FaultCode) (w : Word) : (s.captureFault c w).pwrStat = s.pwrStat := by unfold State.captureFault; split <;> rfl
@[simp] theorem State.captureFault_faultCode (s : State) (c : FaultCode) (w : Word) : (s.captureFault c w).faultCode = if s.faultCode = 0 then c.bits else s.faultCode := by unfold State.captureFault; split <;> rfl
@[simp] theorem State.captureFault_faultWord (s : State) (c : FaultCode) (w : Word) : (s.captureFault c w).faultWord = if s.faultCode = 0 then w else s.faultWord := by unfold State.captureFault; split <;> rfl
@[simp] theorem State.captureFault_rsp (s : State) (c : FaultCode) (w : Word) : (s.captureFault c w).rsp = s.rsp := by unfold State.captureFault; split <;> rfl
@[simp] theorem State.captureFault_pwrEvt (s : State) (c : FaultCode) (w : Word) : (s.captureFault c w).pwrEvt = s.pwrEvt := by unfold State.captureFault; split <;> rfl
@[simp] theorem State.captureFault_params (s : State) (c : FaultCode) (w : Word) : (s.captureFault c w).params = s.params := by unfold State.captureFault; split <;> rfl
@[simp] theorem State.captureFault_trace (s : State) (c : FaultCode) (w : Word) : (s.captureFault c w).trace = s.trace := by unfold State.captureFault; split <;> rfl
@[simp] theorem State.captureFault_rxHeld (s : State) (c : FaultCode) (w : Word) : (s.captureFault c w).rxHeld = s.rxHeld := by unfold State.captureFault; split <;> rfl
@[simp] theorem State.captureFault_epoch (s : State) (c : FaultCode) (w : Word) : (s.captureFault c w).epoch = s.epoch := by unfold State.captureFault; split <;> rfl
@[simp] theorem State.captureFault_turn (s : State) (c : FaultCode) (w : Word) : (s.captureFault c w).turn = s.turn := by unfold State.captureFault; split <;> rfl

@[simp] theorem State.raiseFault_mem (s : State) (c : FaultCode) (w : Word) : (s.raiseFault c w).mem = s.mem := by unfold State.raiseFault; split <;> simp_all
@[simp] theorem State.raiseFault_wr (s : State) (c : FaultCode) (w : Word) : (s.raiseFault c w).wr = s.wr := by unfold State.raiseFault; split <;> simp_all
@[simp] theorem State.raiseFault_rd (s : State) (c : FaultCode) (w : Word) : (s.raiseFault c w).rd = s.rd := by unfold State.raiseFault; split <;> simp_all
@[simp] theorem State.raiseFault_avail (s : State) (c : FaultCode) (w : Word) : (s.raiseFault c w).avail = s.avail := by unfold State.raiseFault; split <;> simp_all
@[simp] theorem State.raiseFault_ie (s : State) (c : FaultCode) (w : Word) : (s.raiseFault c w).ie = s.ie := by unfold State.raiseFault; split <;> simp_all
@[simp] theorem State.raiseFault_savedIe (s : State) (c : FaultCode) (w : Word) : (s.raiseFault c w).savedIe = s.savedIe := by unfold State.raiseFault; split <;> simp_all
@[simp] theorem State.raiseFault_depth (s : State) (c : FaultCode) (w : Word) : (s.raiseFault c w).depth = s.depth := by unfold State.raiseFault; split <;> simp_all
@[simp] theorem State.raiseFault_rxPend (s : State) (c : FaultCode) (w : Word) : (s.raiseFault c w).rxPend = s.rxPend := by unfold State.raiseFault; split <;> simp_all
@[simp] theorem State.raiseFault_rxData (s : State) (c : FaultCode) (w : Word) : (s.raiseFault c w).rxData = s.rxData := by unfold State.raiseFault; split <;> simp_all
@[simp] theorem State.raiseFault_tickPend (s : State) (c : FaultCode) (w : Word) : (s.raiseFault c w).tickPend = s.tickPend := by unfold State.raiseFault; split <;> simp_all
@[simp] theorem State.raiseFault_tick (s : State) (c : FaultCode) (w : Word) : (s.raiseFault c w).tick = s.tick := by unfold State.raiseFault; split <;> simp_all
@[simp] theorem State.raiseFault_pwrStat (s : State) (c : FaultCode) (w : Word) : (s.raiseFault c w).pwrStat = s.pwrStat := by unfold State.raiseFault; split <;> simp_all
@[simp] theorem State.raiseFault_faultCode (s : State) (c : FaultCode) (w : Word) : (s.raiseFault c w).faultCode = if s.faultCode = 0 then c.bits else s.faultCode := by unfold State.raiseFault; split <;> simp_all
@[simp] theorem State.raiseFault_faultWord (s : State) (c : FaultCode) (w : Word) : (s.raiseFault c w).faultWord = if s.faultCode = 0 then w else s.faultWord := by unfold State.raiseFault; split <;> simp_all
@[simp] theorem State.raiseFault_rsp (s : State) (c : FaultCode) (w : Word) : (s.raiseFault c w).rsp = if wordPort w = 0b00#2 then some ⟨true, 0⟩ else none := by unfold State.raiseFault; split <;> simp_all
@[simp] theorem State.raiseFault_pwrEvt (s : State) (c : FaultCode) (w : Word) : (s.raiseFault c w).pwrEvt = 0 := by unfold State.raiseFault; split <;> simp_all
@[simp] theorem State.raiseFault_params (s : State) (c : FaultCode) (w : Word) : (s.raiseFault c w).params = s.params := by unfold State.raiseFault; split <;> simp_all
@[simp] theorem State.raiseFault_trace (s : State) (c : FaultCode) (w : Word) : (s.raiseFault c w).trace = s.trace := by unfold State.raiseFault; split <;> simp_all
@[simp] theorem State.raiseFault_rxHeld (s : State) (c : FaultCode) (w : Word) : (s.raiseFault c w).rxHeld = s.rxHeld := by unfold State.raiseFault; split <;> simp_all
@[simp] theorem State.raiseFault_epoch (s : State) (c : FaultCode) (w : Word) : (s.raiseFault c w).epoch = s.epoch := by unfold State.raiseFault; split <;> simp_all
@[simp] theorem State.raiseFault_turn (s : State) (c : FaultCode) (w : Word) : (s.raiseFault c w).turn = s.turn := by unfold State.raiseFault; split <;> simp_all

@[simp] theorem State.hardReset_mem (s : State) : (s.hardReset).mem = [] := rfl
@[simp] theorem State.hardReset_wr (s : State) : (s.hardReset).wr = 0 := rfl
@[simp] theorem State.hardReset_rd (s : State) : (s.hardReset).rd = 0 := rfl
@[simp] theorem State.hardReset_avail (s : State) : (s.hardReset).avail = 128 := rfl
@[simp] theorem State.hardReset_ie (s : State) : (s.hardReset).ie = false := rfl
@[simp] theorem State.hardReset_savedIe (s : State) : (s.hardReset).savedIe = false := rfl
@[simp] theorem State.hardReset_depth (s : State) : (s.hardReset).depth = 0 := rfl
@[simp] theorem State.hardReset_rxPend (s : State) : (s.hardReset).rxPend = false := rfl
@[simp] theorem State.hardReset_rxData (s : State) : (s.hardReset).rxData = Config.freeRxData (s.epoch + 1) := rfl
@[simp] theorem State.hardReset_tickPend (s : State) : (s.hardReset).tickPend = false := rfl
@[simp] theorem State.hardReset_tick (s : State) : (s.hardReset).tick = 0 := rfl
@[simp] theorem State.hardReset_pwrStat (s : State) : (s.hardReset).pwrStat = 0 := rfl
@[simp] theorem State.hardReset_faultCode (s : State) : (s.hardReset).faultCode = 0 := rfl
@[simp] theorem State.hardReset_faultWord (s : State) : (s.hardReset).faultWord = 0 := rfl
@[simp] theorem State.hardReset_rsp (s : State) : (s.hardReset).rsp = none := rfl
@[simp] theorem State.hardReset_pwrEvt (s : State) : (s.hardReset).pwrEvt = 0 := rfl
@[simp] theorem State.hardReset_params (s : State) : (s.hardReset).params = s.params := rfl
@[simp] theorem State.hardReset_trace (s : State) : (s.hardReset).trace = s.trace := rfl
@[simp] theorem State.hardReset_rxHeld (s : State) : (s.hardReset).rxHeld = s.rxHeld := rfl
@[simp] theorem State.hardReset_epoch (s : State) : (s.hardReset).epoch = s.epoch + 1 := rfl
@[simp] theorem State.hardReset_turn (s : State) : (s.hardReset).turn = s.turn := rfl

@[simp] theorem State.acknowledge_mem (s : State) (src : Source) : (s.acknowledge src).mem = s.mem := by cases src <;> simp [State.acknowledge]
@[simp] theorem State.acknowledge_wr (s : State) (src : Source) : (s.acknowledge src).wr = s.wr := by cases src <;> simp [State.acknowledge]
@[simp] theorem State.acknowledge_rd (s : State) (src : Source) : (s.acknowledge src).rd = s.rd := by cases src <;> simp [State.acknowledge]
@[simp] theorem State.acknowledge_avail (s : State) (src : Source) : (s.acknowledge src).avail = s.avail := by cases src <;> simp [State.acknowledge]
@[simp] theorem State.acknowledge_ie (s : State) (src : Source) : (s.acknowledge src).ie = s.ie := by cases src <;> simp [State.acknowledge]
@[simp] theorem State.acknowledge_savedIe (s : State) (src : Source) : (s.acknowledge src).savedIe = s.savedIe := by cases src <;> simp [State.acknowledge]
@[simp] theorem State.acknowledge_depth (s : State) (src : Source) : (s.acknowledge src).depth = s.depth := by cases src <;> simp [State.acknowledge]
@[simp] theorem State.acknowledge_rxPend (s : State) (src : Source) : (s.acknowledge src).rxPend = (s.rxPend && decide (src ≠ .rx)) := by cases src <;> simp [State.acknowledge]
@[simp] theorem State.acknowledge_rxData (s : State) (src : Source) : (s.acknowledge src).rxData = s.rxData := by cases src <;> simp [State.acknowledge]
@[simp] theorem State.acknowledge_tickPend (s : State) (src : Source) : (s.acknowledge src).tickPend = (s.tickPend && decide (src ≠ .tick)) := by cases src <;> simp [State.acknowledge]
@[simp] theorem State.acknowledge_tick (s : State) (src : Source) : (s.acknowledge src).tick = s.tick := by cases src <;> simp [State.acknowledge]
@[simp] theorem State.acknowledge_pwrStat (s : State) (src : Source) : (s.acknowledge src).pwrStat = s.pwrStat := by cases src <;> simp [State.acknowledge]
@[simp] theorem State.acknowledge_faultCode (s : State) (src : Source) : (s.acknowledge src).faultCode = s.faultCode := by cases src <;> simp [State.acknowledge]
@[simp] theorem State.acknowledge_faultWord (s : State) (src : Source) : (s.acknowledge src).faultWord = s.faultWord := by cases src <;> simp [State.acknowledge]
@[simp] theorem State.acknowledge_rsp (s : State) (src : Source) : (s.acknowledge src).rsp = s.rsp := by cases src <;> simp [State.acknowledge]
@[simp] theorem State.acknowledge_pwrEvt (s : State) (src : Source) : (s.acknowledge src).pwrEvt = s.pwrEvt := by cases src <;> simp [State.acknowledge]
@[simp] theorem State.acknowledge_params (s : State) (src : Source) : (s.acknowledge src).params = s.params := by cases src <;> simp [State.acknowledge]
@[simp] theorem State.acknowledge_trace (s : State) (src : Source) : (s.acknowledge src).trace = s.trace := by cases src <;> simp [State.acknowledge]
@[simp] theorem State.acknowledge_rxHeld (s : State) (src : Source) : (s.acknowledge src).rxHeld = s.rxHeld := by cases src <;> simp [State.acknowledge]
@[simp] theorem State.acknowledge_epoch (s : State) (src : Source) : (s.acknowledge src).epoch = s.epoch := by cases src <;> simp [State.acknowledge]
@[simp] theorem State.acknowledge_turn (s : State) (src : Source) : (s.acknowledge src).turn = s.turn := by cases src <;> simp [State.acknowledge]

@[simp] theorem State.takeEvent_mem (s : State) : (s.takeEvent).mem = s.mem := rfl
@[simp] theorem State.takeEvent_wr (s : State) : (s.takeEvent).wr = s.wr := rfl
@[simp] theorem State.takeEvent_rd (s : State) : (s.takeEvent).rd = s.rd := rfl
@[simp] theorem State.takeEvent_avail (s : State) : (s.takeEvent).avail = s.avail := rfl
@[simp] theorem State.takeEvent_ie (s : State) : (s.takeEvent).ie = s.ie := rfl
@[simp] theorem State.takeEvent_savedIe (s : State) : (s.takeEvent).savedIe = s.savedIe := rfl
@[simp] theorem State.takeEvent_depth (s : State) : (s.takeEvent).depth = s.depth := rfl
@[simp] theorem State.takeEvent_rxPend (s : State) : (s.takeEvent).rxPend = s.rxPend := rfl
@[simp] theorem State.takeEvent_rxData (s : State) : (s.takeEvent).rxData = s.rxData := rfl
@[simp] theorem State.takeEvent_tickPend (s : State) : (s.takeEvent).tickPend = s.tickPend := rfl
@[simp] theorem State.takeEvent_tick (s : State) : (s.takeEvent).tick = s.tick := rfl
@[simp] theorem State.takeEvent_pwrStat (s : State) : (s.takeEvent).pwrStat = s.pwrStat := rfl
@[simp] theorem State.takeEvent_faultCode (s : State) : (s.takeEvent).faultCode = s.faultCode := rfl
@[simp] theorem State.takeEvent_faultWord (s : State) : (s.takeEvent).faultWord = s.faultWord := rfl
@[simp] theorem State.takeEvent_rsp (s : State) : (s.takeEvent).rsp = s.rsp := rfl
@[simp] theorem State.takeEvent_pwrEvt (s : State) : (s.takeEvent).pwrEvt = s.pwrEvt := rfl
@[simp] theorem State.takeEvent_params (s : State) : (s.takeEvent).params = s.params := rfl
@[simp] theorem State.takeEvent_trace (s : State) : (s.takeEvent).trace = s.trace.tail := rfl
@[simp] theorem State.takeEvent_rxHeld (s : State) : (s.takeEvent).rxHeld = s.rxHeld := rfl
@[simp] theorem State.takeEvent_epoch (s : State) : (s.takeEvent).epoch = s.epoch := rfl
@[simp] theorem State.takeEvent_turn (s : State) : (s.takeEvent).turn = s.nextTurn := rfl

end Sys2Proof.Machine
end

