-- ==== Sys2Proof/Laws/Memory.lean ====
section
/-! SUPPORT. The laws of storage and of indices: read after write, the canonical form, the wrap. -/

namespace Sys2Proof.Machine

@[simp] theorem Memory.read_nil (a : Nat) : Memory.read [] a = none := rfl

@[simp] theorem Memory.read_write_same (m : Memory) (a : Nat) (b : Byte) :
    Memory.read (Memory.write m a b) a = some b := by
  induction m with
  | nil => simp [Memory.write, Memory.read]
  | cons c rest ih =>
    obtain ⟨k, v⟩ := c
    simp only [Memory.write]
    split
    · simp [Memory.read]
    · split
      · simp [Memory.read]
      · have hk : k ≠ a := by omega
        simp [Memory.read, hk, ih]

theorem Memory.read_write_ne (m : Memory) {a a' : Nat} (b : Byte) (h : a' ≠ a) :
    Memory.read (Memory.write m a b) a' = Memory.read m a' := by
  induction m with
  | nil => simp [Memory.write, Memory.read, h.symm]
  | cons c rest ih =>
    obtain ⟨k, v⟩ := c
    simp only [Memory.write]
    split
    · simp [Memory.read, h.symm]
    · split
      · next hk => subst hk; simp [Memory.read, h.symm]
      · simp [Memory.read, ih]

/-- Reading after a write: the written byte at its index, every other entry as before. -/
theorem Memory.read_write (m : Memory) (a a' : Nat) (b : Byte) :
    Memory.read (Memory.write m a b) a' = if a' = a then some b else Memory.read m a' := by
  split
  · next h => subst h; simp
  · next h => exact Memory.read_write_ne m b h

theorem Memory.wfFrom_mono {m : Memory} {lo lo' : Nat} (h : Memory.wfFrom lo m = true) (hl : lo' ≤ lo) :
    Memory.wfFrom lo' m = true := by
  cases m with
  | nil => rfl
  | cons c rest =>
    obtain ⟨k, v⟩ := c
    simp only [Memory.wfFrom, Bool.and_eq_true, decide_eq_true_eq] at h ⊢
    exact ⟨⟨by omega, h.1.2⟩, h.2⟩

theorem Memory.wfFrom_write {m : Memory} {lo a : Nat} (b : Byte) (h : Memory.wfFrom lo m = true)
    (hlo : lo ≤ a) (ha : a < Config.cap) : Memory.wfFrom lo (Memory.write m a b) = true := by
  induction m generalizing lo with
  | nil => simp [Memory.write, Memory.wfFrom, hlo, ha]
  | cons c rest ih =>
    obtain ⟨k, v⟩ := c
    simp only [Memory.wfFrom, Bool.and_eq_true, decide_eq_true_eq] at h
    simp only [Memory.write]
    split
    · next hk =>
      simp only [Memory.wfFrom, Bool.and_eq_true, decide_eq_true_eq]
      exact ⟨⟨hlo, ha⟩, ⟨by omega, h.1.2⟩, h.2⟩
    · split
      · next hk =>
        subst hk
        simp only [Memory.wfFrom, Bool.and_eq_true, decide_eq_true_eq]
        exact h
      · simp only [Memory.wfFrom, Bool.and_eq_true, decide_eq_true_eq]
        exact ⟨h.1, ih h.2 (by omega)⟩

/-- A write inside `[0, CAP)` keeps the canonical form. -/
theorem Memory.wf_write {m : Memory} {a : Nat} (b : Byte) (h : Memory.wf m = true) (ha : a < Config.cap) :
    Memory.wf (Memory.write m a b) = true :=
  Memory.wfFrom_write b h (Nat.zero_le a) ha

theorem Memory.wf_reset : Memory.wf State.reset.mem = true := rfl

/-- Reading one entry after MemWrite. -/
theorem State.memRead_memWrite (s : State) (a a' : Nat) (b : Byte) :
    (s.memWrite a b).memRead a' = if a' = a then b else s.memRead a' := by
  simp only [State.memRead, State.memWrite_mem, Memory.read_write, State.unwritten, State.memWrite_epoch]
  by_cases h : a' = a <;> simp only [h, if_true, if_false]

/-- What an entry reads as depends on storage and on the reset epoch alone. -/
theorem State.memRead_congr {s t : State} (hm : t.mem = s.mem) (he : t.epoch = s.epoch) (a : Nat) :
    t.memRead a = s.memRead a := by
  simp [State.memRead, State.unwritten, hm, he]

theorem nextIdx_toNat (i : Idx) : (nextIdx i).toNat = (i.toNat + 1) % 128 := by
  simp only [nextIdx, Config.cap, BitVec.toNat_ofNat]
  omega

/-- The advance with wrap-around is the natural 7-bit increment (40_fifo.md R98). -/
theorem nextIdx_eq_add_one (i : Idx) : nextIdx i = i + 1 := by
  apply BitVec.eq_of_toNat_eq
  rw [nextIdx_toNat, BitVec.toNat_add]
  rfl

theorem idx_lt_cap (i : Idx) : i.toNat < Config.cap := i.isLt

end Sys2Proof.Machine
end

