-- ==== Sys2Proof/Laws/PerInstr.lean ====
section
/-! SUPPORT. What holds of every operation as syntax: the word `encode` gives it is legal by the rule's own predicate
(30_encoding.md R75), so every term of `Instr` is well formed. -/

namespace Sys2Proof.Laws.EncodesLegally

def Statement (i : Instr) : Prop := legalWord (encode i) = true

theorem nop : Statement .nop := by unfold Statement; decide
theorem pop : Statement .pop := by unfold Statement; decide
theorem status : Statement .status := by unfold Statement; decide
theorem csBegin : Statement .csBegin := by unfold Statement; decide
theorem csEnd : Statement .csEnd := by unfold Statement; decide
theorem intEnable : Statement .intEnable := by unfold Statement; decide
theorem intDisable : Statement .intDisable := by unfold Statement; decide
theorem csStatus : Statement .csStatus := by unfold Statement; decide
theorem tickRead : Statement .tickRead := by unfold Statement; decide
theorem init : Statement .init := by unfold Statement; decide
theorem faultRead : Statement .faultRead := by unfold Statement; decide
theorem rxArrive (d : Byte) : Statement (.rxArrive d) := by unfold Statement; revert d; decide
theorem tickExpire : Statement .tickExpire := by unfold Statement; decide
theorem pwrSet (m : PwrMask) : Statement (.pwrSet m) := by unfold Statement; revert m; decide
theorem push (d : Byte) : Statement (.push d) := by unfold Statement; revert d; decide
theorem tickInc : Statement .tickInc := by unfold Statement; decide
theorem pwrService : Statement .pwrService := by unfold Statement; decide

end Sys2Proof.Laws.EncodesLegally
end

