-- ==== Sys2Proof/Laws/Step.lean ====
section
/-! SUPPORT. What one step, and each shared operation it goes through, can do: one lemma for each. -/

namespace Sys2Proof.Machine

theorem State.nextEvent_cons {s : State} {ev : Event} {rest : List Event} (h : s.trace = ev :: rest) : s.nextEvent = ev := by
  simp [State.nextEvent, h]

theorem State.takeEvent_cons {s : State} {ev : Event} {rest : List Event} (h : s.trace = ev :: rest) :
    s.takeEvent = { s with trace := rest } := by
  simp [State.takeEvent, State.nextTurn, h]

theorem step_takes {s : State} {ev : Event} {rest : List Event} (h : s.trace = ev :: rest) :
    step s = perform ev { s with trace := rest } := by
  rw [step, State.nextEvent_cons h, State.takeEvent_cons h]

@[simp] theorem State.mayDeliver_takeEvent (s : State) (src : Source) : s.takeEvent.mayDeliver src = s.mayDeliver src := rfl

@[simp] theorem State.deliveryInstr_takeEvent (s : State) (src : Source) :
    deliveryInstr src s.takeEvent = deliveryInstr src s := by cases src <;> rfl

theorem State.mem_admitted (s : State) (src : Source) : src ∈ s.admitted ↔ s.mayDeliver src = true := by
  simp only [State.admitted, List.mem_filter]
  cases src <;> simp

/-- Some source may be delivered wherever one is deliverable: a fixed list names all three. -/
theorem State.exists_mayDeliver {s : State} {src : Source} (h : s.deliverable src = true) :
    ∃ x, s.mayDeliver x = true := by
  cases ho : s.params.irqOrder with
  | any => exact ⟨src, by simp [State.mayDeliver, h, ho]⟩
  | fixed p =>
    have hm : src ∈ Priority.order p := by cases p <;> cases src <;> decide
    cases hf : (Priority.order p).find? s.deliverable with
    | none => exact absurd h (by simpa using List.find?_eq_none.mp hf src hm)
    | some x => exact ⟨x, by simp [State.mayDeliver, List.find?_some hf, ho, hf]⟩

/-- The pick after the trace's end: none where no source is deliverable, a source that may be delivered where one is. -/
theorem State.pickAdmitted_cases (s : State) :
    (s.pickAdmitted = none ∧ s.admitted = [] ∧ ∀ src, s.deliverable src = false)
    ∨ (∃ src, s.pickAdmitted = some src ∧ s.mayDeliver src = true ∧ s.admitted ≠ []) := by
  cases ha : s.admitted with
  | nil =>
    refine .inl ⟨by simp [State.pickAdmitted, ha], rfl, fun src => ?_⟩
    cases hd : s.deliverable src
    · rfl
    · obtain ⟨x, hx⟩ := State.exists_mayDeliver hd
      have := (s.mem_admitted x).mpr hx
      rw [ha] at this
      cases this
  | cons a rest =>
    have hall : ∀ x, x ∈ a :: rest → s.mayDeliver x = true := fun x hx => (s.mem_admitted x).mp (ha ▸ hx)
    refine .inr ?_
    cases rest with
    | nil => exact ⟨a, by simp [State.pickAdmitted, ha], hall a (by simp), by simp⟩
    | cons b rest =>
      refine ⟨(b :: rest).getD (Config.freeChoice s.turn) a, by simp [State.pickAdmitted, ha], hall _ ?_, by simp⟩
      rw [List.getD_eq_getElem?_getD]
      cases hg : (b :: rest)[Config.freeChoice s.turn]? with
      | none => simp
      | some x => exact List.mem_cons_of_mem _ (List.mem_of_getElem? hg)

/-- The step after the trace's end: an enabled delivery, an offer of a held byte, or an idle clock. -/
theorem State.nextEvent_nil {s : State} (h : s.trace = []) :
    (∃ src, s.nextEvent = .deliver src ∧ s.mayDeliver src = true ∧ s.takeEvent = { s with turn := s.turn + 1 })
    ∨ ((∀ src, s.deliverable src = false) ∧ s.rxPend = false ∧ s.rxHeld ≠ [] ∧ s.nextEvent = .offerHeld ∧ s.takeEvent = s)
    ∨ ((∀ src, s.deliverable src = false) ∧ (s.rxPend = true ∨ s.rxHeld = []) ∧ s.nextEvent = .idle ∧ s.takeEvent = s) := by
  rcases s.pickAdmitted_cases with ⟨hn, ha, hd⟩ | ⟨src, hs, hm, ha⟩
  · have ht : s.takeEvent = s := by
      cases s; simp only at h; subst h; simp [State.takeEvent, State.nextTurn, ha]
    by_cases hc : s.rxPend = false ∧ s.rxHeld ≠ []
    · exact .inr (.inl ⟨hd, hc.1, hc.2, by simp [State.nextEvent, State.eventAfterTrace, h, hn, hc], ht⟩)
    · refine .inr (.inr ⟨hd, ?_, by simp only [State.nextEvent, State.eventAfterTrace, h, hn, if_neg hc], ht⟩)
      by_cases hp : s.rxPend = true
      · exact .inl hp
      · exact .inr (by simpa [hp] using hc)
  · refine .inl ⟨src, by simp [State.nextEvent, State.eventAfterTrace, h, hs], hm, ?_⟩
    cases hx : s.admitted with
    | nil => exact absurd hx ha
    | cons a r => simp [State.takeEvent, State.nextTurn, h, hx]

/-- What holds of the trace's first step, of deliveries, of offers and of idle clocks holds of the next step. -/
theorem State.nextEvent_of_trace {s : State} {P : Event → Prop} (h : ∀ ev, ev ∈ s.trace.take 1 → P ev)
    (hd : ∀ src, P (.deliver src)) (ho : P .offerHeld) (hi : P .idle) : P s.nextEvent := by
  cases ht : s.trace with
  | nil =>
    rcases State.nextEvent_nil ht with ⟨src, he, _⟩ | ⟨_, _, _, he, _⟩ | ⟨_, _, he, _⟩ <;> rw [he]
    · exact hd src
    · exact ho
    · exact hi
  | cons ev rest => rw [State.nextEvent_cons ht]; exact h ev (by simp [ht])

/-- A word that arrives: refused on port I, an operation where it decodes, the fault ILLEGAL_OP elsewhere. -/
theorem arrive_cases (w : Word) (s : State) :
    (wordPort w = 0b10#2 ∧ arrive w s = .refused .portIHasNoInput)
    ∨ (wordPort w ≠ 0b10#2 ∧ ∃ i, decode w = .ok i ∧ arrive w s = exec i s)
    ∨ (wordPort w ≠ 0b10#2 ∧ (∃ c, decode w = .illegal c) ∧ arrive w s = .next (s.raiseFault .illegalOp w)) := by
  by_cases hp : wordPort w = 0b10#2
  · exact .inl ⟨hp, by simp [arrive, hp]⟩
  · refine .inr ?_
    cases hd : decode w with
    | ok i => exact .inl ⟨hp, i, rfl, by simp [arrive, hp, hd]⟩
    | illegal c => exact .inr ⟨hp, ⟨c, rfl⟩, by simp [arrive, hp, hd]⟩

/-- A delivery: the port-I operation of its source where it is enabled and admitted, no step elsewhere. -/
theorem deliver_cases (src : Source) (s : State) :
    (s.mayDeliver src = true ∧ deliver src s = exec (deliveryInstr src s) (s.acknowledge src))
    ∨ (s.mayDeliver src = false ∧ deliver src s = .fault (.deliveryNotEnabled src)) := by
  cases h : s.mayDeliver src <;> simp [deliver, h]

/-- A source that may be delivered is pending, and delivery is on. -/
theorem State.enabled_of_mayDeliver {s : State} {src : Source} (h : s.mayDeliver src = true) :
    s.ie = true ∧ s.pending src = true := by
  simp only [State.mayDeliver, State.deliverable, Bool.and_eq_true] at h
  exact h.1

/-- An offer of a held byte: none is held, the latch is full under Stall, or the byte arrives. -/
theorem offerHeld_cases (s : State) :
    (s.rxHeld = [] ∧ offerHeld s = .fault .noHeldArrival)
    ∨ (∃ d rest, s.rxHeld = d :: rest ∧ s.rxPend = true ∧ s.params.rxOverrun = .stall ∧ offerHeld s = .next s.silent)
    ∨ (∃ d rest, s.rxHeld = d :: rest ∧ ¬(s.rxPend = true ∧ s.params.rxOverrun = .stall)
        ∧ offerHeld s = exec (.rxArrive d) { s with rxHeld := rest }) := by
  cases hh : s.rxHeld with
  | nil => exact .inl ⟨rfl, by simp [offerHeld, hh]⟩
  | cons d rest =>
    refine .inr ?_
    by_cases hc : s.rxPend = true ∧ s.params.rxOverrun = .stall
    · exact .inl ⟨d, rest, rfl, hc.1, hc.2, by simp [offerHeld, hh, hc.1, hc.2]⟩
    · refine .inr ⟨d, rest, rfl, hc, ?_⟩
      simp only [offerHeld, hh]
      rw [if_neg]
      simpa using hc

/-- INT_ENABLE and INT_DISABLE: outside a section they set the enable, inside one they fault. -/
theorem State.setIe_cases (s : State) (b : Bool) (w : Word) :
    (s.depth = 0 ∧ s.setIe b w = ({ s with ie := b } : State).respond 0)
    ∨ (s.depth ≠ 0 ∧ s.setIe b w = s.raiseFault .ieInCs w) := by
  by_cases h : s.depth = 0
  · exact .inl ⟨h, if_pos h⟩
  · exact .inr ⟨h, if_neg h⟩

/-- Everything a step can do when it answers a next state: an idle clock, an operation on port C or E, an illegal word, a
delivery, a held byte that waits or arrives, a reset. -/
theorem step_cases {s t : State} (h : step s = .next t) :
    (s.nextEvent = .idle ∧ t = s.takeEvent.silent)
    ∨ (∃ w i, s.nextEvent = .word w ∧ wordPort w ≠ 0b10#2 ∧ decode w = .ok i ∧ exec i s.takeEvent = .next t)
    ∨ (∃ w c, s.nextEvent = .word w ∧ wordPort w ≠ 0b10#2 ∧ decode w = .illegal c
        ∧ t = s.takeEvent.raiseFault .illegalOp w)
    ∨ (∃ src, s.nextEvent = .deliver src ∧ s.mayDeliver src = true
        ∧ exec (deliveryInstr src s) (s.takeEvent.acknowledge src) = .next t)
    ∨ (∃ d held, s.nextEvent = .offerHeld ∧ s.rxHeld = d :: held ∧ s.rxPend = true
        ∧ s.params.rxOverrun = .stall ∧ t = s.takeEvent.silent)
    ∨ (∃ d held, s.nextEvent = .offerHeld ∧ s.rxHeld = d :: held ∧ ¬(s.rxPend = true ∧ s.params.rxOverrun = .stall)
        ∧ exec (.rxArrive d) { s.takeEvent with rxHeld := held } = .next t)
    ∨ (∃ c e, s.nextEvent = .reset c e ∧ t = s.takeEvent.hardReset) := by
  rw [step] at h
  cases hn : s.nextEvent with
  | idle => rw [hn] at h; cases h; exact .inl ⟨rfl, rfl⟩
  | word w =>
    rw [hn, perform] at h
    rcases arrive_cases w s.takeEvent with ⟨hp, he⟩ | ⟨hp, i, hd, he⟩ | ⟨hp, ⟨c, hd⟩, he⟩ <;> rw [he] at h
    · cases h
    · exact .inr (.inl ⟨w, i, rfl, hp, hd, h⟩)
    · cases h; exact .inr (.inr (.inl ⟨w, c, rfl, hp, hd, rfl⟩))
  | deliver src =>
    rw [hn, perform] at h
    rcases deliver_cases src s.takeEvent with ⟨hp, he⟩ | ⟨hp, he⟩ <;> rw [he] at h
    · rw [State.deliveryInstr_takeEvent] at h
      exact .inr (.inr (.inr (.inl ⟨src, rfl, hp, h⟩)))
    · cases h
  | offerHeld =>
    rw [hn, perform] at h
    rcases offerHeld_cases s.takeEvent with ⟨hp, he⟩ | ⟨d, r, hh, hp, ho, he⟩ | ⟨d, r, hh, hc, he⟩ <;> rw [he] at h
    · cases h
    · cases h; exact .inr (.inr (.inr (.inr (.inl ⟨d, r, rfl, hh, hp, ho, rfl⟩))))
    · exact .inr (.inr (.inr (.inr (.inr (.inl ⟨d, r, rfl, hh, hc, h⟩)))))
  | reset c e => rw [hn] at h; cases h; exact .inr (.inr (.inr (.inr (.inr (.inr ⟨c, e, rfl, rfl⟩)))))

/-- No operation touches the parameters, the steps to come or the reset epoch. -/
theorem exec_outside {i : Instr} {s t : State} (h : exec i s = .next t) :
    t.params = s.params ∧ t.trace = s.trace ∧ t.epoch = s.epoch := by
  cases i <;>
    simp only [exec, execNop, execPop, execStatus, execCsBegin, execCsEnd, execIntEnable, execIntDisable, execCsStatus,
      State.setIe, execTickRead, execInit, execFaultRead, execRxArrive, execTickExpire, execPwrSet, execPush, execTickInc,
      execPwrService] at h <;>
    (repeat' split at h) <;> injection h with h <;> subst h <;> simp

/-- A step takes the first step off the trace. -/
theorem step_trace {s t : State} (h : step s = .next t) : t.trace = s.trace.tail := by
  rcases step_cases h with ⟨_, rfl⟩ | ⟨w, i, _, _, _, he⟩ | ⟨w, c, _, _, _, rfl⟩ | ⟨src, _, _, he⟩ | ⟨d, r, _, _, _, _, rfl⟩ |
    ⟨d, r, _, _, _, he⟩ | ⟨c, e, _, rfl⟩
  · rfl
  · exact (exec_outside he).2.1
  · simp
  · exact (exec_outside he).2.1.trans (by simp)
  · rfl
  · exact (exec_outside he).2.1
  · rfl

/-- One more step of a run, where the step answers a next state. -/
theorem run_next {k : Nat} {s u : State} (h : step s = .next u) :
    Sys2Proof.core.run (k + 1) s = Sys2Proof.core.run k u := by
  have e : Sys2Proof.core.step s = step s := rfl
  simp only [Host.Core.run, e, h]

/-- A run that answers a next state took its first step. -/
theorem run_succ {k : Nat} {s t : State} (h : Sys2Proof.core.run (k + 1) s = .next t) :
    ∃ u, step s = .next u ∧ Sys2Proof.core.run k u = .next t := by
  have e : Sys2Proof.core.step s = step s := rfl
  simp only [Host.Core.run, e] at h
  cases hs : step s with
  | next u => rw [hs] at h; exact ⟨u, rfl, h⟩
  | fault r => rw [hs] at h; cases h
  | refused r => rw [hs] at h; cases h

end Sys2Proof.Machine
end

