-- ==== Sys2Proof/Tests/Slice0.lean ====
section
/-! SUPPORT. Tests. Expected results come from spec/95_test_vectors.md (the vector is named) or are written out from
30_encoding.md. After them, for every statement with hypotheses, a theorem `witness_<Name>` with concrete states and operands
that meet them, clause by clause, at the ends of their ranges. -/

namespace Sys2Proof.Tests

open Sys2Proof Sys2Proof.Machine

/-- S0 of 95_test_vectors.md, under given parameters. -/
def s0With (o : RxOverrun) (q : IrqOrder) : State := State.atReset ⟨o, q⟩ 0

/-- S0. -/
def s0 : State := s0With .dropNew .any

/-- S0+EN: after INT_ENABLE. -/
def s0En : State := { s0 with ie := true }

/-- `Fill(n)`, `n ≤ 128`: the bytes 0 to n-1 in the queue. -/
def fill (n : Nat) : State :=
  { s0En with
    mem := (List.range n).map (fun i => (i, BitVec.ofNat 8 i))
    wr := BitVec.ofNat 7 (n % 128)
    avail := BitVec.ofNat 8 (128 - n) }

/-- The state that a step or an operation leads to. -/
def nextOf (o : Host.Outcome State Fault Refusal) : Option State :=
  match o with
  | .next t => some t
  | _ => none

/-- One operation, seen through a view. -/
def run1 {α : Type} (i : Instr) (s : State) (view : State → α) : Option α := (nextOf (exec i s)).map view

/-- One step of an agent, seen through a view. -/
def step1 {α : Type} (ev : Event) (s : State) (view : State → α) : Option α :=
  (nextOf (step { s with trace := ev :: s.trace })).map view

/-! ## Words that are refused: each check of `legalWord` (30_encoding.md R75) -/

/-- V-E4, V-E5, V-E8, V-E16, V-E19: reserved `op` on each port. -/
theorem test_reserved_op_is_illegal :
    [0x0B000#18, 0x0F000#18, 0x10000#18, 0x14000#18, 0x20000#18, 0x24000#18].map legalWord
      = [false, false, false, false, false, false] := by decide

/-- V-E6, V-E11: nonzero `rsv`. -/
theorem test_nonzero_rsv_is_illegal :
    [0x01100#18, 0x11141#18, 0x13800#18, 0x21141#18].map legalWord = [false, false, false, false] := by decide

/-- V-E7, V-E12, V-E18: nonzero `imm8` where none is taken. -/
theorem test_nonzero_imm8_is_illegal :
    [0x01001#18, 0x12001#18, 0x22001#18, 0x23080#18].map legalWord = [false, false, false, false] := by decide

/-- V-E15: nonzero `imm8[7:4]` in PWR_SET. -/
theorem test_nonzero_mask_high_is_illegal : [0x13010#18, 0x13080#18].map legalWord = [false, false] := by decide

/-- V-E20, V-E21: port 0b11. -/
theorem test_port_three_is_illegal : [0x30000#18, 0x3FFFF#18].map legalWord = [false, false] := by decide

/-- The decoder refuses the same words, by name. -/
theorem test_decode_names_the_cause :
    decode 0x0B000#18 = .illegal .reservedOp ∧ decode 0x11141#18 = .illegal .nonzeroRsv
      ∧ decode 0x01001#18 = .illegal .nonzeroImm8 ∧ decode 0x13010#18 = .illegal .nonzeroMaskHigh
      ∧ decode 0x30000#18 = .illegal .reservedPort := by decide

/-! ## Decoding, one word for each constructor, bit by bit: port, op, rsv, imm8 -/

theorem test_decode_port_c :
    decode 0b00_0000_0000_00000000#18 = .ok .nop
      ∧ decode 0b00_0001_0000_00000000#18 = .ok .pop
      ∧ decode 0b00_0010_0000_00000000#18 = .ok .status
      ∧ decode 0b00_0011_0000_00000000#18 = .ok .csBegin
      ∧ decode 0b00_0100_0000_00000000#18 = .ok .csEnd
      ∧ decode 0b00_0101_0000_00000000#18 = .ok .intEnable
      ∧ decode 0b00_0110_0000_00000000#18 = .ok .intDisable
      ∧ decode 0b00_0111_0000_00000000#18 = .ok .csStatus
      ∧ decode 0b00_1000_0000_00000000#18 = .ok .tickRead
      ∧ decode 0b00_1001_0000_00000000#18 = .ok .init
      ∧ decode 0b00_1010_0000_00000000#18 = .ok .faultRead := by decide

theorem test_decode_port_e :
    decode 0b01_0001_0000_00000001#18 = .ok (.rxArrive 0x01)
      ∧ decode 0b01_0001_0000_11111111#18 = .ok (.rxArrive 0xFF)
      ∧ decode 0b01_0010_0000_00000000#18 = .ok .tickExpire
      ∧ decode 0b01_0011_0000_00000010#18 = .ok (.pwrSet 0b0010)
      ∧ decode 0b01_0011_0000_00001111#18 = .ok (.pwrSet 0b1111) := by decide

theorem test_decode_port_i :
    decode 0b10_0001_0000_10000001#18 = .ok (.push 0x81)
      ∧ decode 0b10_0010_0000_00000000#18 = .ok .tickInc
      ∧ decode 0b10_0011_0000_00000000#18 = .ok .pwrService := by decide

/-- The words of 30_encoding.md R71 to R73, as the opcode table numbers them. -/
theorem test_decode_table_word :
    decodeTableWord 24 0x01000 = some .pop ∧ decodeTableWord 24 0x11041 = some (.rxArrive 0x41)
      ∧ decodeTableWord 24 0x23000 = some .pwrService ∧ decodeTableWord 24 0x0B000 = none
      ∧ decodeTableWord 24 0x41000 = none := by decide

/-! ## Operations -/

/-- V-F13. -/
theorem test_nop : run1 .nop s0 (fun t => (t.rsp, t.avail)) = some (some ⟨false, 0⟩, 128) := by decide

/-- V-F10: the read index wraps. -/
theorem test_pop_wraps :
    run1 .pop { fill 128 with rd := 127, avail := 127 } (fun t => (t.rsp, t.rd, t.avail))
      = some (some ⟨false, 0x0000017F⟩, 0, 128) := by decide

/-- V-F2. -/
theorem test_pop_empty :
    run1 .pop s0 (fun t => (t.rsp, t.rd, t.avail)) = some (some ⟨false, 0⟩, 0, 128) := by decide

/-- V-F1, V-F7, V-F17. -/
theorem test_status :
    run1 .status s0 (·.rsp) = some (some ⟨false, 0x00000180⟩)
      ∧ run1 .status (fill 128) (·.rsp) = some (some ⟨false, 0x00000200⟩)
      ∧ run1 .status (fill 127) (·.rsp) = some (some ⟨false, 0x00000001⟩) := by decide

/-- V-C1. -/
theorem test_cs_begin :
    run1 .csBegin s0En (fun t => (t.rsp, t.ie, t.savedIe, t.depth))
      = some (some ⟨false, 0x00000101⟩, false, true, 1) := by decide

/-- V-C6: the depth limit. -/
theorem test_cs_begin_overflow :
    run1 .csBegin { s0 with depth := 255 } (fun t => (t.rsp, t.depth, t.faultCode, t.faultWord))
      = some (some ⟨true, 0⟩, 255, 3, 0x03000) := by decide

/-- V-C2, and the inner CS_END of V-C3. -/
theorem test_cs_end :
    run1 .csEnd { s0 with savedIe := true, depth := 1 } (fun t => (t.rsp, t.ie, t.savedIe, t.depth))
        = some (some ⟨false, 0x00000001⟩, true, true, 0)
      ∧ run1 .csEnd { s0 with savedIe := true, depth := 2 } (fun t => (t.rsp, t.ie, t.depth))
        = some (some ⟨false, 0x00000100⟩, false, 1) := by decide

/-- V-C5: a stray CS_END does not turn interrupts on. -/
theorem test_cs_end_underflow :
    run1 .csEnd { s0 with savedIe := true } (fun t => (t.rsp, t.ie, t.depth, t.faultCode, t.faultWord))
      = some (some ⟨true, 0⟩, false, 0, 2, 0x04000) := by decide

/-- V-C9, V-C7. -/
theorem test_int_enable :
    run1 .intEnable s0 (fun t => (t.rsp, t.ie)) = some (some ⟨false, 0⟩, true)
      ∧ run1 .intEnable { s0 with depth := 1 } (fun t => (t.rsp, t.ie, t.depth, t.faultCode, t.faultWord))
        = some (some ⟨true, 0⟩, false, 1, 4, 0x05000) := by decide

/-- V-C10, V-C8. -/
theorem test_int_disable :
    run1 .intDisable s0En (fun t => (t.rsp, t.ie)) = some (some ⟨false, 0⟩, false)
      ∧ run1 .intDisable { s0 with depth := 1 } (fun t => (t.rsp, t.faultCode, t.faultWord))
        = some (some ⟨true, 0⟩, 4, 0x06000) := by decide

/-- V-C11, and step 7 of program P4. -/
theorem test_cs_status :
    run1 .csStatus { s0 with rxPend := true, tickPend := true, pwrStat := 0b0101, faultCode := 2 } (·.rsp)
        = some (some ⟨false, 0x00520070⟩)
      ∧ run1 .csStatus { s0 with savedIe := true, depth := 1, pwrStat := 0b1001, faultCode := 2 } (·.rsp)
        = some (some ⟨false, 0x00920142⟩) := by decide

/-- The example of 42_timer.md R120. -/
theorem test_tick_read :
    run1 .tickRead { s0 with tick := 0x0000002A } (·.rsp) = some (some ⟨false, 0x0000002A⟩) := by decide

/-- V-F11, V-R3: what was left in storage stays, the rest of the block is untouched. -/
theorem test_init :
    run1 .init { fill 3 with tick := 5, faultCode := 2 } (fun t => (t.wr, t.avail, t.ie, t.tick, t.faultCode))
        = some (0, 128, true, 5, 2)
      ∧ run1 .init (fill 3) (fun t => (t.rsp, t.mem)) = some (some ⟨false, 0⟩, [(0, 0), (1, 1), (2, 2)]) := by decide

/-- V-C15. -/
theorem test_fault_read :
    run1 .faultRead { s0 with faultCode := 1, faultWord := 0x0B000 } (·.rsp)
      = some (some ⟨false, 0x0100B000⟩) := by decide

/-- V-F3. -/
theorem test_rx_arrive :
    run1 (.rxArrive 0x41) s0En (fun t => (t.rsp, t.rxPend, t.rxData)) = some (none, true, 0x41) := by decide

/-- V-F14, V-F15, V-F16. -/
theorem test_rx_arrive_on_a_full_latch :
    run1 (.rxArrive 0x42) { s0With .dropNew .any with rxPend := true, rxData := 0x41 }
        (fun t => (t.rxPend, t.rxData, t.rxHeld)) = some (true, 0x41, [])
      ∧ run1 (.rxArrive 0x42) { s0With .overwrite .any with rxPend := true, rxData := 0x41 }
        (fun t => (t.rxPend, t.rxData, t.rxHeld)) = some (true, 0x42, [])
      ∧ run1 (.rxArrive 0x42) { s0With .stall .any with rxPend := true, rxData := 0x41 }
        (fun t => (t.rxPend, t.rxData, t.rxHeld)) = some (true, 0x41, [0x42]) := by decide

/-- V-T1, V-T2. -/
theorem test_tick_expire :
    run1 .tickExpire s0 (fun t => (t.rsp, t.tickPend, t.tick)) = some (none, true, 0)
      ∧ run1 .tickExpire { s0 with tickPend := true } (fun t => (t.tickPend, t.tick)) = some (true, 0) := by decide

/-- V-P2. -/
theorem test_pwr_set :
    run1 (.pwrSet 0b0010) { s0 with pwrStat := 0b1001 } (fun t => (t.rsp, t.pwrStat, t.pwrEvt))
      = some (none, 0b1011, 0) := by decide

/-- V-F9: the write index wraps. -/
theorem test_push_wraps :
    run1 (.push 0xAA) { s0En with wr := 127, avail := 1 } (fun t => (t.mem, t.wr, t.avail, t.rsp))
      = some ([(127, 0xAA)], 0, 0, none) := by decide

/-- V-F8: a full FIFO drops the byte. -/
theorem test_push_full :
    run1 (.push 0x99) { s0En with mem := [(0, 7)], avail := 0 } (fun t => (t.mem, t.wr, t.rd, t.avail))
      = some ([(0, 7)], 0, 0, 0) := by decide

/-- V-T4, V-T6. -/
theorem test_tick_inc :
    run1 .tickInc { s0 with tick := 0xFFFFFFFF } (·.tick) = some 0
      ∧ run1 .tickInc { s0 with tick := 41 } (·.tick) = some 42 := by decide

/-- V-P3. -/
theorem test_pwr_service :
    run1 .pwrService { s0En with pwrStat := 0b1011 } (fun t => (t.pwrStat, t.pwrEvt, t.rsp))
      = some (0, 0b1011, none) := by decide

/-! ## Steps -/

/-- V-F4. -/
theorem test_deliver_rx :
    step1 (.deliver .rx) { s0En with rxPend := true, rxData := 0x41 } (fun t => (t.rxPend, t.mem, t.wr, t.avail))
      = some (false, [(0, 0x41)], 1, 127) := by decide

/-- V-I3, V-C13: no delivery while `ie` is 0. -/
theorem test_no_delivery_when_masked :
    step1 (.deliver .rx) { s0 with rxPend := true } (·.wr) = none := by decide

/-- V-I2: under the list PWR, TICK, RX only PWR may go first. -/
theorem test_fixed_order :
    [Source.pwr, .tick, .rx].map ({ s0With .dropNew (.fixed .pwrTickRx) with
        ie := true, rxPend := true, tickPend := true, pwrStat := 0b0001 } : State).mayDeliver
      = [true, false, false] := by decide

/-- V-F18, V-F19: an illegal word on port C is answered, one on port E is not, and neither has an effect. -/
theorem test_illegal_words :
    step1 (.word 0x01001) (fill 3) (fun t => (t.rsp, t.rd, t.avail, t.faultCode, t.faultWord))
        = some (some ⟨true, 0⟩, 0, 125, 1, 0x01001)
      ∧ step1 (.word 0x11141) s0 (fun t => (t.rsp, t.rxPend, t.faultCode, t.faultWord))
        = some (none, false, 1, 0x11141) := by decide

/-- V-C12: the first fault is kept. -/
theorem test_first_fault_is_kept :
    step1 (.word 0x05000) { s0 with depth := 1, faultCode := 2, faultWord := 0x04000 }
      (fun t => (t.rsp, t.faultCode, t.faultWord)) = some (some ⟨true, 0⟩, 2, 0x04000) := by decide

/-- V-R1, V-R2: the word of a reset's clock is not performed. -/
theorem test_reset :
    step1 (.reset none (some 0x1041)) { fill 3 with depth := 3, tick := 9, pwrStat := 3, faultCode := 2 }
      (fun t => (t.avail, t.depth, t.rxPend, t.mem)) = some (128, 0, false, []) := by decide

/-- A word placed with `withFetchWord` on the reset state is the first to run, on each port (log 14). -/
theorem test_with_fetch_word :
    (nextOf (step (State.reset.withFetchWord 24 0x02000))).map (·.rsp) = some (some ⟨false, 0x00000180⟩)
      ∧ (nextOf (step (State.reset.withFetchWord 24 0x13009))).map (·.pwrStat) = some 0b1001
      ∧ (nextOf (step (State.reset.withFetchWord 24 0x21041))).map (·.mem) = some [(0, 0x41)]
      ∧ (nextOf (step (State.reset.withFetchWord 24 0x22000))).map (·.tick) = some 1
      ∧ (nextOf (step (State.reset.withFetchWord 24 0x23000))).map (·.pwrEvt) = some 0b0001 := by decide

/-- Step 12a of program P3: the held byte waits for the latch, then arrives. -/
theorem test_held_arrival :
    step1 .offerHeld { s0With .stall .any with rxPend := true, rxData := 1, rxHeld := [2] }
        (fun t => (t.rxPend, t.rxData, t.rxHeld)) = some (true, 1, [2])
      ∧ step1 .offerHeld { s0With .stall .any with rxData := 1, rxHeld := [2] }
        (fun t => (t.rxPend, t.rxData, t.rxHeld)) = some (true, 2, []) := by decide

/-- 60_exceptions.md R148: after the trace's end the only pending source is delivered, under a fixed list the first; a masked one
stays pending. -/
theorem test_delivery_after_the_trace :
    (nextOf (step { s0En with tickPend := true })).map (fun t => (t.tick, t.tickPend)) = some (1, false)
      ∧ (nextOf (step { s0With .dropNew (.fixed .pwrTickRx) with ie := true, tickPend := true, pwrStat := 1 })).map
          (fun t => (t.tickPend, t.pwrEvt)) = some (true, 1)
      ∧ (nextOf (step { s0 with tickPend := true })).map (fun t => (t.tick, t.tickPend)) = some (0, true) := by decide

/-- 30_encoding.md R83, 60_exceptions.md R148: an idle clock of the trace leaves an enabled delivery for later. -/
theorem test_idle_clock : step1 .idle { s0En with tickPend := true } (fun t => (t.tick, t.tickPend)) = some (0, true) := by
  decide

/-- The three conditions of 70_reset_and_hazards.md R183, and its remark on `ie = 0`. -/
theorem test_run_ended :
    s0En.runEnded = true ∧ ({ s0 with tickPend := true } : State).runEnded = true
      ∧ ({ s0En with tickPend := true } : State).runEnded = false ∧ ({ s0 with rxHeld := [2] } : State).runEnded = false
      ∧ ({ s0 with trace := [.word 0] } : State).runEnded = false := by decide

/-! ## Assembler (30_encoding.md R78, R79): its examples -/

theorem test_assemble_words :
    assembleLine "POP" = some [.word 0x01000] ∧ assembleLine "E: RX_ARRIVE 0x41" = some [.word 0x11041]
      ∧ assembleLine "E: RX_ARRIVE 65" = some [.word 0x11041]
      ∧ assembleLine "E: PWR_SET CONNECT|HOST_RESUME" = some [.word 0x13009]
      ∧ assembleLine "E: PWR_SET 0b0101" = some [.word 0x13005]
      ∧ assembleLine "I: PUSH 0x41" = some [.word 0x21041] := by decide

theorem test_assemble_pseudo_steps :
    assembleLine "deliver PWR" = some [.deliver .pwr] ∧ assembleLine "reset" = some [.reset none none]
      ∧ assembleLine "C: READ_BYTE" = some [.word 0x03000, .word 0x01000, .word 0x04000]
      ∧ assembleLine "E: POP" = none ∧ assembleLine "E: RX_ARRIVE 256" = none := by decide

/-! ## Witnesses -/

/-- A sound state from its parts, each of which is decidable. -/
theorem inv_of {s : State}
    (h : s.AvailInRange ∧ s.IndexRelation ∧ s.MaskedInSection ∧ s.FaultRecordLegal ∧ s.StorageCanonical ∧ s.QueueWritten
      ∧ s.HeldOnlyUnderStall) : s.Inv :=
  ⟨h.1, h.2.1, h.2.2.1, h.2.2.2.1, h.2.2.2.2.1, h.2.2.2.2.2.1, h.2.2.2.2.2.2⟩

/-- Two bytes in the queue, one in the latch, a tick and a power condition pending, a fault recorded, delivery on. -/
def busy : State :=
  { fill 2 with
    rxPend := true, rxData := 0xAA, tickPend := true, pwrStat := 0b0100, faultCode := 2, faultWord := 0x04000 }

/-- A full FIFO with a byte in the latch, delivery on. -/
def fullState : State := { fill 128 with rxPend := true, rxData := 0xAA }

/-- One free slot, a byte in the latch, delivery on. -/
def oneFree : State := { fill 127 with rxPend := true, rxData := 0xAA }

/-- A fixed order in which TICK comes first. -/
def tickFirst : State := { busy with params := ⟨.stall, .fixed .tickRxPwr⟩ }

/-- One byte in the FIFO, one in the latch, delivery on. -/
def oneByte : State := { fill 1 with rxPend := true, rxData := 0xAA }

/-- An empty FIFO with a byte in the latch, delivery on. -/
def emptyFifo : State := { s0En with rxPend := true, rxData := 0xAA }

/-- A byte held under Stall, the latch empty. -/
def heldOnly : State := { s0With .stall .any with rxHeld := [2] }

/-- Delivery off, a byte in the latch, another held under Stall. -/
def masked : State := { s0With .stall .any with rxPend := true, rxData := 1, rxHeld := [2] }

/-- The same state with one step to come. -/
def giving (s : State) (ev : Event) : State := { s with trace := [ev] }

theorem busy_inv : busy.Inv := inv_of (by decide)

theorem fullState_inv : fullState.Inv := inv_of (by decide +kernel)

theorem oneFree_inv : oneFree.Inv := inv_of (by decide +kernel)

/-- The same state with other steps to come is as sound. -/
theorem inv_trace {s : State} (h : s.Inv) (tr : List Event) : ({ s with trace := tr } : State).Inv :=
  ⟨h.availInRange, h.indexRelation, h.maskedInSection, h.faultRecordLegal, h.storageCanonical, h.queueWritten,
    h.heldOnlyUnderStall⟩

theorem witness_StepRunsTheDecodedOperation :
    (∃ (s : State) (w : Word) (i : Instr) (rest : List Event),
        s.trace = .word w :: rest ∧ wordPort w ≠ 0b10#2 ∧ decode w = .ok i)
      ∧ (∀ src : Source, (giving busy (.deliver src)).trace = .deliver src :: []
          ∧ (giving busy (.deliver src)).mayDeliver src = true)
      ∧ ((giving tickFirst (.deliver .tick)).trace = .deliver .tick :: []
          ∧ (giving tickFirst (.deliver .tick)).mayDeliver .tick = true)
      ∧ (busy.trace = [] ∧ ∃ src, busy.deliverable src = true)
      ∧ (heldOnly.trace = [] ∧ (∀ src, heldOnly.deliverable src = false) ∧ heldOnly.rxHeld = 2 :: [] ∧ heldOnly.rxPend = false) :=
  ⟨⟨giving busy (.word 0x13009), 0x13009, .pwrSet 0b1001, [], by decide⟩, by intro src; cases src <;> decide, by decide,
    ⟨rfl, .rx, by decide⟩, ⟨rfl, by intro src; cases src <;> decide, rfl, rfl⟩⟩

theorem witness_PresentedWordRunsNext :
    (decode 0x0A000#18 = .ok .faultRead ∧ wordPort 0x0A000#18 ≠ 0b10#2)
      ∧ (decode 0x110FF#18 = .ok (.rxArrive 0xFF) ∧ wordPort 0x110FF#18 ≠ 0b10#2)
      ∧ (decode 0x21000#18 = .ok (.push 0) ∧ wordPort 0x21000#18 = 0b10#2)
      ∧ (decode 0x22000#18 = .ok .tickInc ∧ wordPort 0x22000#18 = 0b10#2)
      ∧ (decode 0x23000#18 = .ok .pwrService ∧ wordPort 0x23000#18 = 0b10#2) := by decide

theorem witness_IllegalWordOnlyRaisesIllegalOp :
    ∀ w : Word, w ∈ [0x0B000#18, 0x13010#18, 0x3FFFF#18] →
      (giving busy (.word w)).trace = .word w :: [] ∧ wordPort w ≠ 0b10#2 ∧ legalWord w = false := by
  intro w h
  simp only [List.mem_cons, List.not_mem_nil, or_false] at h
  rcases h with rfl | rfl | rfl <;> decide

theorem witness_PortIWordIsNoInput :
    (giving busy (.word 0x21041)).trace = .word 0x21041 :: [] ∧ wordPort 0x21041#18 = 0b10#2 := by decide

theorem witness_FaultRegisterIsSticky :
    ∃ s t : State, step s = .next t ∧ (∀ c e, s.nextEvent ≠ .reset c e) ∧ s.faultCode ≠ 0 :=
  ⟨{ busy with trace := [.word 0x0B000] }, _, rfl, (by intro c e h; cases h), by decide⟩

theorem witness_RxArriveLatchesTheByte : s0.rxPend = false ∧ (fill 128).rxPend = false := by decide

theorem witness_RxArriveOnAFullLatchFollowsRxOverrun :
    ∀ o : RxOverrun, ({ s0With o .any with rxPend := true } : State).rxPend = true
      ∧ ({ s0With o .any with rxPend := true } : State).params.rxOverrun = o := by intro o; cases o <;> decide

theorem witness_HeldByteWaitsForTheLatch :
    ∀ b : Bool, ∃ (s : State) (d : Byte) (held : List Byte) (rest : List Event),
      s.trace = .offerHeld :: rest ∧ s.rxHeld = d :: held ∧ s.params.rxOverrun = .stall ∧ s.rxPend = b :=
  fun b => ⟨{ s0With .stall .any with trace := [.offerHeld], rxHeld := [0x42], rxPend := b }, 0x42, [], [], rfl, rfl, rfl, rfl⟩

theorem witness_PushStoresAtTheWriteIndex : 0 < s0.avail.toNat ∧ oneFree.avail.toNat = 1 := by decide

theorem witness_PushOnAFullFifoChangesNothing : fullState.avail.toNat = 0 := by decide

theorem witness_PopReturnsTheOldestByte :
    fullState.avail.toNat = 0 ∧ (fill 1).avail.toNat = 127 ∧ fullState.avail.toNat < 128 ∧ (fill 1).avail.toNat < 128 := by
  decide

theorem witness_PopOnAnEmptyFifoFindsNothing : 128 ≤ s0.avail.toNat := by decide

theorem witness_NopOnlyResponds :
    ∀ s : State, exec .nop s = .next { s with rsp := some ⟨false, 0⟩, pwrEvt := 0 } := fun _ => rfl

/-- A delivery that is accepted, a POP, an INIT. -/
theorem witness_EveryStepIsAQueueStep :
    (∃ s t : State, s.Inv ∧ step s = .next t ∧ s.acceptedNext = [0xAA] ∧ s.nextEvent.emptiesFifo = false)
      ∧ (∃ s t : State, s.Inv ∧ step s = .next t ∧ s.returnedNext = [0x00] ∧ s.nextEvent.emptiesFifo = false)
      ∧ (∃ s t : State, s.Inv ∧ step s = .next t ∧ s.nextEvent.emptiesFifo = true) :=
  ⟨⟨_, _, inv_trace busy_inv [.deliver .rx], rfl, by decide, by decide⟩,
    ⟨_, _, inv_trace busy_inv [.word 0x01000], rfl, by decide, by decide⟩,
    ⟨_, _, inv_trace busy_inv [.word 0x09000], rfl, by decide⟩⟩

/-- Three steps that accept one byte and return two. -/
theorem witness_BytesAreReturnedInTheOrderAccepted :
    ∃ (k : Nat) (s t : State), s.Inv ∧ (∀ ev, ev ∈ s.trace.take k → ev.emptiesFifo = false)
      ∧ Sys2Proof.core.run k s = .next t ∧ acceptedIn k s = [0xAA] ∧ returnedIn k s = [0x00, 0x01] :=
  ⟨3, _, _, inv_trace busy_inv [.word 0x01000, .deliver .rx, .word 0x01000], by decide, rfl, by decide, by decide⟩

theorem witness_UnspecifiedBytesAreUnobservable :
    (∃ s t : State, s.Inv ∧ (∀ c p, s.nextEvent ≠ .reset c p) ∧ step s = .next t)
      ∧ (∃ s x : State, s.Inv ∧ (∀ k, k < s.used → x.memRead (s.slot k) = s.memRead (s.slot k)) ∧ x.mem ≠ s.mem)
      ∧ (∃ s t : State, s.rxPend = false ∧ step s = .next t ∧ t.rxPend = true)
      ∧ (∃ s t : State, s.rxPend = false ∧ step s = .next t ∧ t.rxPend = false) :=
  ⟨⟨_, _, inv_trace busy_inv [.word 0x01000], (by intro c e h; cases h), rfl⟩,
    ⟨fill 2, { fill 2 with mem := [(0, 0), (1, 1), (5, 9)] }, inv_of (by decide), by decide, by decide⟩,
    ⟨{ s0 with trace := [.word 0x11041] }, _, rfl, rfl, rfl⟩,
    ⟨{ s0 with trace := [.word 0x01000] }, _, rfl, rfl, rfl⟩⟩

theorem witness_OnlyAnRxDeliveryWritesStorage :
    ∃ s t : State, step s = .next t ∧ (∀ c e, s.nextEvent ≠ .reset c e)
      ∧ s.nextEvent ≠ .deliver .rx :=
  ⟨{ busy with trace := [.word 0x09000] }, _, rfl, (by intro c e h; cases h), by decide⟩

theorem witness_CsBeginMasksAndNests :
    s0En.depth.toNat < 255 ∧ s0En.depth.toNat = 0 ∧ ({ s0 with depth := 254 } : State).depth.toNat < 255 := by decide

theorem witness_CsBeginAtTheDepthLimitFaults : ({ s0 with depth := 255 } : State).depth.toNat = 255 := by decide

theorem witness_CsEndUnnestsAndRestores :
    0 < ({ s0 with depth := 1 } : State).depth.toNat ∧ 0 < ({ s0 with depth := 255 } : State).depth.toNat := by decide

theorem witness_CsEndOutsideASectionFaults : s0En.depth.toNat = 0 := by decide

theorem witness_IntEnableAndDisableSetTheMask : s0.depth.toNat = 0 ∧ s0En.depth.toNat = 0 := by decide

theorem witness_IntEnableAndDisableFaultInASection :
    ({ s0 with depth := 1 } : State).depth.toNat ≠ 0 ∧ ({ s0 with depth := 255 } : State).depth.toNat ≠ 0 := by decide

/-- V-C3: two sections, one inside the other, and the state inside both. -/
theorem witness_BalancedNestRestoresTheEnable :
    ∃ (cmds : List Bool) (s : State) (rest : List Event),
      s.depth = 0 ∧ s.trace = cmds.map (fun b => .word (nestWord b)) ++ rest ∧ nestDepth 0 cmds = some 0
        ∧ ∃ k n : Nat, k ≤ cmds.length ∧ nestDepth 0 (cmds.take k) = some n ∧ 0 < n :=
  ⟨[true, true, false, false], { s0En with trace := [.word 0x03000, .word 0x03000, .word 0x04000, .word 0x04000] }, [],
    rfl, rfl, by decide, 2, 2, by decide, by decide, by decide⟩

theorem witness_ReadByteIsAPopInASection :
    ∃ (s : State) (rest : List Event), s.depth = 0
      ∧ s.trace = .word 0x03000#18 :: .word 0x01000#18 :: .word 0x04000#18 :: rest :=
  ⟨{ busy with trace := [.word 0x03000, .word 0x01000, .word 0x04000] }, [], rfl, rfl⟩

/-- The enable changes, the depth changes, a fault is answered. -/
theorem witness_OnlyCsmCommandsChangeTheMask :
    (∃ s t : State, step s = .next t ∧ (∀ c e, s.nextEvent ≠ .reset c e) ∧ t.ie ≠ s.ie)
      ∧ (∃ s t : State, step s = .next t ∧ (∀ c e, s.nextEvent ≠ .reset c e) ∧ t.depth ≠ s.depth)
      ∧ (∃ s t : State, step s = .next t ∧ (∀ c e, s.nextEvent ≠ .reset c e) ∧ t.rsp = some ⟨true, 0⟩) :=
  ⟨⟨{ s0 with trace := [.word 0x05000] }, _, rfl, (by intro c e h; cases h), by decide⟩,
    ⟨{ s0 with trace := [.word 0x03000] }, _, rfl, (by intro c e h; cases h), by decide⟩,
    ⟨{ s0 with trace := [.word 0x04000] }, _, rfl, (by intro c e h; cases h), by decide⟩⟩

theorem witness_TickExpireSetsOnePendingBit : busy.tickPend = true := rfl

theorem witness_TickCountsItsDeliveries :
    ∃ (k : Nat) (s t : State), (∀ ev, ev ∈ s.trace.take k → ev.isReset = false) ∧ Sys2Proof.core.run k s = .next t
      ∧ ticksDeliveredIn k s = 1 :=
  ⟨2, { busy with trace := [.deliver .tick, .word 0x12000] }, _, by decide, rfl, by decide⟩

theorem witness_PwrSetWithHighBitsIsIllegal :
    ∀ w : Word, w ∈ [0x13011#18, 0x13080#18, 0x13FFF#18] →
      (giving busy (.word w)).trace = .word w :: [] ∧ w.extractLsb' 16 2 = 0b01#2 ∧ w.extractLsb' 12 4 = 0x3#4
        ∧ w.extractLsb' 4 4 ≠ 0#4 := by
  intro w h
  simp only [List.mem_cons, List.not_mem_nil, or_false] at h
  rcases h with rfl | rfl | rfl <;> decide

/-- A source that may be delivered, one that has to wait for its turn, one that is masked. -/
theorem witness_DeliveryNeedsEnableAndTurn :
    ((giving tickFirst (.deliver .tick)).trace = .deliver .tick :: [] ∧ tickFirst.mayDeliver .tick = true)
      ∧ ((giving tickFirst (.deliver .rx)).trace = .deliver .rx :: [] ∧ tickFirst.mayDeliver .rx = false)
      ∧ ((giving s0 (.deliver .rx)).trace = .deliver .rx :: [] ∧ s0.mayDeliver .rx = false) := by decide

theorem witness_DeliveryPerformsItsAction :
    ((giving oneFree (.deliver .rx)).trace = .deliver .rx :: [] ∧ (giving oneFree (.deliver .rx)).mayDeliver .rx = true
        ∧ 0 < (giving oneFree (.deliver .rx)).avail.toNat)
      ∧ ((giving fullState (.deliver .rx)).trace = .deliver .rx :: []
        ∧ (giving fullState (.deliver .rx)).mayDeliver .rx = true ∧ (giving fullState (.deliver .rx)).avail.toNat = 0)
      ∧ ((giving busy (.deliver .tick)).trace = .deliver .tick :: []
        ∧ (giving busy (.deliver .tick)).mayDeliver .tick = true)
      ∧ ((giving busy (.deliver .pwr)).trace = .deliver .pwr :: []
        ∧ (giving busy (.deliver .pwr)).mayDeliver .pwr = true) := by decide

theorem witness_DeliveriesCommute :
    busy.params.irqOrder = .any ∧ busy.deliverable .rx = true ∧ busy.deliverable .tick = true
      ∧ busy.deliverable .pwr = true := by decide

/-- The starts of V-F20 to V-F23, one byte in the FIFO, and an empty FIFO. -/
theorem witness_PopAndRxDeliveryInEitherOrder :
    (oneFree.mayDeliver .rx = true ∧ oneFree.Inv ∧ 0 < oneFree.avail.toNat ∧ oneFree.avail.toNat < 128)
      ∧ (oneByte.mayDeliver .rx = true ∧ oneByte.Inv ∧ 0 < oneByte.avail.toNat ∧ oneByte.avail.toNat = 127)
      ∧ (fullState.mayDeliver .rx = true ∧ fullState.Inv ∧ fullState.avail.toNat = 0)
      ∧ (emptyFifo.mayDeliver .rx = true ∧ emptyFifo.Inv ∧ emptyFifo.avail.toNat = 128) :=
  ⟨⟨by decide, oneFree_inv, by decide, by decide⟩, ⟨by decide, inv_of (by decide), by decide, by decide⟩,
    ⟨by decide, fullState_inv, by decide⟩, ⟨by decide, inv_of (by decide), by decide⟩⟩

theorem witness_OnlyItsDeliveryClearsASource :
    (∃ s t : State, step s = .next t ∧ (∀ c e, s.nextEvent ≠ .reset c e)
        ∧ s.pending .rx = true ∧ t.pending .rx = false)
      ∧ (∃ s t : State, step s = .next t ∧ (∀ c e, s.nextEvent ≠ .reset c e)
        ∧ s.pending .tick = true ∧ t.pending .tick = false)
      ∧ (∃ s t : State, step s = .next t ∧ (∀ c e, s.nextEvent ≠ .reset c e)
        ∧ s.pwrStat.getLsbD 2 = true ∧ t.pwrStat.getLsbD 2 = false) :=
  ⟨⟨{ busy with trace := [.deliver .rx] }, _, rfl, (by intro c e h; cases h), by decide, by decide⟩,
    ⟨{ busy with trace := [.deliver .tick] }, _, rfl, (by intro c e h; cases h), by decide, by decide⟩,
    ⟨{ busy with trace := [.deliver .pwr] }, _, rfl, (by intro c e h; cases h), by decide, by decide⟩⟩

theorem witness_OutputsAreDrivenByTheirStepsOnly :
    (∃ s t : State, step s = .next t ∧ t.rsp.isSome = true)
      ∧ (∃ s t : State, step s = .next t ∧ s.nextEvent = .deliver .pwr)
      ∧ (∃ s t : State, step s = .next t ∧ s.nextEvent ≠ .deliver .pwr) :=
  ⟨⟨{ busy with trace := [.word 0x02000] }, _, rfl, rfl⟩, ⟨{ busy with trace := [.deliver .pwr] }, _, rfl, rfl⟩,
    ⟨{ busy with trace := [.deliver .rx] }, _, rfl, by decide⟩⟩

/-- An idle clock with deliveries enabled; the end of a trace with nothing pending, and with a byte held behind a masked latch. -/
theorem witness_IdleClockPerformsNothing :
    (giving busy .idle).trace = .idle :: []
      ∧ (s0En.trace = [] ∧ (∀ src, s0En.deliverable src = false) ∧ s0En.rxHeld = [])
      ∧ (masked.trace = [] ∧ (∀ src, masked.deliverable src = false) ∧ masked.rxPend = true ∧ masked.rxHeld ≠ []) :=
  ⟨rfl, ⟨rfl, by intro src; cases src <;> decide, rfl⟩, ⟨rfl, by intro src; cases src <;> decide, rfl, by decide⟩⟩

/-- A run of the machine that delivers the pending tick after its trace's end and is idle from then on; the same as a weakly fair
execution; a run with a held byte. -/
theorem witness_EnabledDeliveriesAreEventuallyTaken :
    (∃ st : Nat → State, (∀ n, step (st n) = .next (st (n + 1))) ∧ (st 0).deliverable .tick = true)
      ∧ (∃ (ev : Nat → Event) (st : Nat → State), IsExecution ev st ∧ WeaklyFair ev st ∧ (st 0).pending .tick = true
          ∧ ∀ m, 0 ≤ m → (st m).ie = true ∧ (ev m).isReset = false)
      ∧ (∃ s : State, s.trace = [] ∧ s.ie = true ∧ s.rxPend = true ∧ s.rxHeld ≠ []) := by
  refine ⟨⟨fun n => if n = 0 then { s0En with tickPend := true } else { s0En with tick := 1, turn := 1 }, ?_, rfl⟩,
    ⟨fun n => if n = 0 then .deliver .tick else .idle,
      fun n => if n = 0 then { s0En with tickPend := true } else { s0En with tick := 1 }, ?_, ?_, rfl, ?_⟩,
    ⟨{ masked with ie := true }, rfl, rfl, rfl, by decide⟩⟩
  · intro n; cases n <;> rfl
  · intro n; cases n <;> rfl
  · intro n src h
    exfalso
    have h1 : ({ s0En with tick := 1 } : State).deliverable src = true := h (n + 1) (Nat.le_succ n)
    cases src <;> revert h1 <;> decide
  · intro m _; cases m <;> exact ⟨rfl, rfl⟩

theorem witness_ParametersAreFixed : ∃ s t : State, step s = .next t :=
  ⟨{ busy with trace := [.reset none none] }, _, rfl⟩

theorem witness_ListedOperationsAreIdempotent :
    ∀ i : Instr, (i ≠ .pop ∧ i ≠ .csBegin ∧ i ≠ .csEnd ∧ i ≠ .tickInc ∧ ∀ d, i ≠ .push d) ↔
      i ∈ [.nop, .status, .intEnable, .intDisable, .csStatus, .tickRead, .init, .faultRead, .tickExpire, .pwrService]
        ∨ (∃ d, i = .rxArrive d) ∨ ∃ m, i = .pwrSet m := by
  intro i; cases i <;> simp

theorem witness_ListedOperationsAreIdempotent_next :
    ∃ t : State, exec (.rxArrive 0x42) { tickFirst with rxPend := true } = .next t := ⟨_, rfl⟩

theorem witness_HardwareResetSetsEveryElement :
    ({ busy with trace := [.reset (some 0x1000) (some 0x1041)] } : State).trace
      = .reset (some 0x1000) (some 0x1041) :: [] := rfl

theorem witness_ResetKeepsWhatIsOutsideTheBlock :
    ({ tickFirst with rxHeld := [0x42], trace := [.reset none none] } : State).trace = .reset none none :: [] := rfl

theorem witness_EveryStepKeepsSoundness :
    (∃ s t : State, s.Inv ∧ step s = .next t) ∧ fullState.Inv ∧ State.Inv { busy with trace := [.deliver .rx] } :=
  ⟨⟨_, _, inv_trace busy_inv [.word 0x0B000], rfl⟩, fullState_inv, inv_trace busy_inv _⟩

/-- A section that stays open over a step in which a source becomes pending. -/
theorem witness_NoDeliveryInsideASection :
    ∃ (k : Nat) (s t : State), s.MaskedInSection
      ∧ (∀ j, j ≤ k → ∃ u, Sys2Proof.core.run j s = .next u ∧ u.depth ≠ 0) ∧ Sys2Proof.core.run k s = .next t ∧ k = 1 := by
  refine ⟨1, { s0 with depth := 1, savedIe := true, trace := [.word 0x11041] }, _, by decide, ?_, rfl, rfl⟩
  intro j hj
  interval_cases j
  · exact ⟨_, rfl, by decide⟩
  · exact ⟨_, rfl, by decide⟩

end Sys2Proof.Tests
end

/-! O5: which operation a step runs (00_scope.md R15), read off the laws of `step`, `arrive`, `deliver` and `offerHeld`. -/

namespace Sys2Proof.Machine

theorem arrive_of_decode {s : State} {w : Word} {i : Instr} (hp : wordPort w ≠ 0b10#2) (hd : decode w = .ok i) :
    arrive w s = exec i s := by
  simp only [arrive, if_neg hp, hd]

theorem deliver_of_mayDeliver {s : State} {src : Source} (hm : s.mayDeliver src = true) :
    deliver src s = exec (deliveryInstr src s) (s.acknowledge src) := by
  simp only [deliver, hm, if_true]

theorem offerHeld_of_latch_empty {s : State} {d : Byte} {held : List Byte} (hh : s.rxHeld = d :: held)
    (hp : s.rxPend = false) : offerHeld s = exec (.rxArrive d) { s with rxHeld := held } := by
  simp only [offerHeld, hh, hp, Bool.false_and, Bool.false_eq_true, if_false]

theorem State.deliverable_of_mayDeliver {s : State} {src : Source} (hm : s.mayDeliver src = true) :
    s.deliverable src = true := by
  simp only [State.deliverable, State.enabled_of_mayDeliver hm, Bool.and_self]

theorem step_of_word {s : State} {w : Word} {i : Instr} {rest : List Event} (ht : s.trace = .word w :: rest)
    (hp : wordPort w ≠ 0b10#2) (hd : decode w = .ok i) : step s = exec i { s with trace := rest } :=
  (step_takes ht).trans (arrive_of_decode hp hd)

/-- A delivery that may be taken runs the port-I operation of its source (60_exceptions.md R145). -/
theorem step_of_delivery {s : State} {src : Source} {rest : List Event} (ht : s.trace = .deliver src :: rest)
    (hm : s.mayDeliver src = true) :
    step s = exec (deliveryInstr src s) (({ s with trace := rest } : State).acknowledge src) := by
  have hop : deliveryInstr src { s with trace := rest } = deliveryInstr src s := by cases src <;> rfl
  calc step s
      = deliver src { s with trace := rest } := step_takes ht
    _ = exec (deliveryInstr src { s with trace := rest }) (({ s with trace := rest } : State).acknowledge src) :=
        deliver_of_mayDeliver hm
    _ = _ := by rw [hop]

/-- After the trace's end an enabled delivery is taken as if it stood in the trace, and uses up one choice (log 25). -/
theorem step_of_deliverable_after_trace {s : State} (ht : s.trace = []) {src : Source}
    (hd : s.deliverable src = true) :
    ∃ x, s.mayDeliver x = true ∧ step s = step { s with trace := [.deliver x], turn := s.turn + 1 } := by
  rcases State.nextEvent_nil ht with ⟨x, hev, hm, htake⟩ | ⟨hnone, _⟩ | ⟨hnone, _⟩
  · refine ⟨x, hm, ?_⟩
    rw [step, hev, htake, step_takes (ev := .deliver x) (rest := []) rfl, ← ht]
  · exact absurd hd (by simp [hnone src])
  · exact absurd hd (by simp [hnone src])

/-- After the trace's end, with no delivery enabled and the latch empty, the oldest held byte arrives (log 11). -/
theorem step_of_held_after_trace {s : State} {d : Byte} {held : List Byte} (ht : s.trace = [])
    (hnone : ∀ src, s.deliverable src = false) (hh : s.rxHeld = d :: held) (hp : s.rxPend = false) :
    step s = exec (.rxArrive d) { s with rxHeld := held } := by
  rcases State.nextEvent_nil ht with ⟨x, _, hm, _⟩ | ⟨_, _, _, hev, htake⟩ | ⟨_, hidle, _⟩
  · exact absurd (State.deliverable_of_mayDeliver hm) (by simp [hnone x])
  · rw [step, hev, htake]
    exact offerHeld_of_latch_empty hh hp
  · exact absurd hidle (by simp [hp, hh])

/-- Settles O5: one law of `step` for each kind of next event. -/
theorem stepRunsTheDecodedOperation : Obligations.StepRunsTheDecodedOperation :=
  ⟨fun _ _ _ _ ht hp hd => step_of_word ht hp hd,
    fun _ _ ht hm => step_of_delivery ht hm,
    fun _ _ ht hm => step_of_delivery ht hm,
    fun _ _ ht hm => step_of_delivery ht hm,
    fun _ ht ⟨_, hd⟩ => step_of_deliverable_after_trace ht hd,
    fun _ _ _ ht hnone hh hp => step_of_held_after_trace ht hnone hh hp⟩

end Sys2Proof.Machine

/-! The words the decoder answers Illegal for are illegal by the rule's own predicate (30_encoding.md R75, R82), and an
operation stands on the port of the word it was decoded from. -/

namespace Sys2Proof.Machine

/-- A slice of a slice that is zero is zero. -/
theorem extractLsb'_eq_zero_of_slice {w : Word} {a b m n : Nat} (h : w.extractLsb' a n = 0) (hb : b + m ≤ n) :
    w.extractLsb' (a + b) m = 0 := by
  ext j hj
  have hbit := congrArg (fun v => v.getLsbD (b + j)) h
  have hin : b + j < n := by omega
  simpa [hin, Nat.add_assoc] using hbit

theorem wordRsv_wordImm8_of_low_zero {w : Word} (h : w.extractLsb' 0 12 = 0) : wordRsv w = 0 ∧ wordImm8 w = 0 :=
  ⟨extractLsb'_eq_zero_of_slice (b := 8) h (by decide), extractLsb'_eq_zero_of_slice (b := 0) h (by decide)⟩

theorem wordRsv_maskHigh_of_middle_zero {w : Word} (h : w.extractLsb' 4 8 = 0) :
    wordRsv w = 0 ∧ (wordImm8 w).extractLsb' 4 4 = 0 := by
  have hlow : w.extractLsb' 4 4 = 0 := extractLsb'_eq_zero_of_slice (b := 0) h (by decide)
  have hhigh : (wordImm8 w).extractLsb' 4 4 = w.extractLsb' 4 4 := by unfold wordImm8; grind
  exact ⟨extractLsb'_eq_zero_of_slice (b := 4) h (by decide), hhigh.trans hlow⟩

theorem decodePlain_of_low_zero {w : Word} (h : w.extractLsb' 0 12 = 0) (i : Instr) : decodePlain w i = .ok i := by
  simp [decodePlain, wordRsv_wordImm8_of_low_zero h]

theorem decodeByte_of_rsv_zero {w : Word} (h : wordRsv w = 0) (mk : Byte → Instr) :
    decodeByte w mk = .ok (mk (wordImm8 w)) := by
  simp [decodeByte, h]

theorem decodeMask_of_middle_zero {w : Word} (h : w.extractLsb' 4 8 = 0) (mk : PwrMask → Instr) :
    decodeMask w mk = .ok (mk ((wordImm8 w).extractLsb' 0 4)) := by
  simp [decodeMask, wordRsv_maskHigh_of_middle_zero h]

theorem decodePortC_of_low_zero {w : Word} (hop : (wordOp w).toNat ≤ 0xA) (h : w.extractLsb' 0 12 = 0) :
    ∃ i, decodePortC w = .ok i := by
  simp only [decodePortC, decodePlain_of_low_zero h]
  generalize (wordOp w).toNat = op at hop
  interval_cases op <;> exact ⟨_, rfl⟩

/-- A legal word decodes: one case for each line of the rule (30_encoding.md R75). -/
theorem decode_ok_of_legal {w : Word} (h : legalWord w = true) : ∃ i, decode w = .ok i := by
  have toNat_port {p : BitVec 2} (hp : w.extractLsb' 16 2 = p) : (wordPort w).toNat = p.toNat := congrArg _ hp
  have toNat_op {o : BitVec 4} (ho : w.extractLsb' 12 4 = o) : (wordOp w).toNat = o.toNat := congrArg _ ho
  simp only [legalWord, Bool.or_eq_true, Bool.and_eq_true, beq_iff_eq, decide_eq_true_eq] at h
  rcases h with (((((⟨⟨hp, ho⟩, hl⟩ | ⟨⟨hp, ho⟩, hl⟩) | ⟨⟨hp, ho⟩, hl⟩) | ⟨⟨hp, ho⟩, hl⟩) | ⟨⟨hp, ho⟩, hl⟩) |
    ⟨⟨hp, ho⟩, hl⟩) | ⟨⟨hp, ho⟩, hl⟩
  · simpa [decode, toNat_port hp] using decodePortC_of_low_zero ho hl
  · exact ⟨.rxArrive (wordImm8 w), by simp [decode, toNat_port hp, decodePortE, toNat_op ho, decodeByte_of_rsv_zero hl]⟩
  · exact ⟨.tickExpire, by simp [decode, toNat_port hp, decodePortE, toNat_op ho, decodePlain_of_low_zero hl]⟩
  · exact ⟨.pwrSet ((wordImm8 w).extractLsb' 0 4), by simp [decode, toNat_port hp, decodePortE, toNat_op ho, decodeMask_of_middle_zero hl]⟩
  · exact ⟨.push (wordImm8 w), by simp [decode, toNat_port hp, decodePortI, toNat_op ho, decodeByte_of_rsv_zero hl]⟩
  · exact ⟨.tickInc, by simp [decode, toNat_port hp, decodePortI, toNat_op ho, decodePlain_of_low_zero hl]⟩
  · exact ⟨.pwrService, by simp [decode, toNat_port hp, decodePortI, toNat_op ho, decodePlain_of_low_zero hl]⟩

theorem legalWord_of_decode_illegal {w : Word} {c : IllegalCause} (h : decode w = .illegal c) : legalWord w = false := by
  by_contra hl
  obtain ⟨i, hi⟩ := decode_ok_of_legal (Bool.eq_true_of_not_eq_false hl)
  rw [hi] at h
  cases h

@[simp] theorem wordPort_tagWord (p : BitVec 2) (o : BitVec 4) (b : Byte) : wordPort (tagWord p o b) = p := by
  unfold wordPort tagWord
  grind

theorem eq_of_decodePlain {w : Word} {i j : Instr} (h : decodePlain w j = .ok i) : i = j := by
  unfold decodePlain at h
  split at h
  · cases h
  · split at h <;> cases h
    rfl

theorem exists_of_decodeByte {w : Word} {i : Instr} {mk : Byte → Instr} (h : decodeByte w mk = .ok i) :
    ∃ d, i = mk d := by
  unfold decodeByte at h
  split at h <;> cases h
  exact ⟨_, rfl⟩

theorem exists_of_decodeMask {w : Word} {i : Instr} {mk : PwrMask → Instr} (h : decodeMask w mk = .ok i) :
    ∃ m, i = mk m := by
  unfold decodeMask at h
  split at h
  · cases h
  · split at h <;> cases h
    exact ⟨_, rfl⟩

theorem wordPort_of_decodePortC {w : Word} {i : Instr} (h : decodePortC w = .ok i) : wordPort (encode i) = 0 := by
  unfold decodePortC at h
  split at h
  case h_12 => cases h
  all_goals rw [eq_of_decodePlain h]; exact wordPort_tagWord ..

theorem wordPort_of_decodePortE {w : Word} {i : Instr} (h : decodePortE w = .ok i) : wordPort (encode i) = 1 := by
  unfold decodePortE at h
  split at h
  · obtain ⟨d, rfl⟩ := exists_of_decodeByte h; exact wordPort_tagWord ..
  · rw [eq_of_decodePlain h]; exact wordPort_tagWord ..
  · obtain ⟨m, rfl⟩ := exists_of_decodeMask h; exact wordPort_tagWord ..
  · cases h

theorem wordPort_of_decodePortI {w : Word} {i : Instr} (h : decodePortI w = .ok i) : wordPort (encode i) = 2 := by
  unfold decodePortI at h
  split at h
  · obtain ⟨d, rfl⟩ := exists_of_decodeByte h; exact wordPort_tagWord ..
  · rw [eq_of_decodePlain h]; exact wordPort_tagWord ..
  · rw [eq_of_decodePlain h]; exact wordPort_tagWord ..
  · cases h

/-- An operation belongs to the port its word names (30_encoding.md R71 to R73). -/
theorem wordPort_of_decode {w : Word} {i : Instr} (h : decode w = .ok i) : wordPort (encode i) = wordPort w := by
  unfold decode at h
  split at h
  · next hp => rw [wordPort_of_decodePortC h]; exact (BitVec.eq_of_toNat_eq hp).symm
  · next hp => rw [wordPort_of_decodePortE h]; exact (BitVec.eq_of_toNat_eq hp).symm
  · next hp => rw [wordPort_of_decodePortI h]; exact (BitVec.eq_of_toNat_eq hp).symm
  · cases h

/-- A word that arrives performs no port-I operation (30_encoding.md R74). -/
theorem ne_of_decode_of_portI {w : Word} {i j : Instr} (hd : decode w = .ok i) (hw : wordPort w ≠ 0b10#2)
    (hj : wordPort (encode j) = 0b10#2) : i ≠ j := by
  rintro rfl
  exact hw ((wordPort_of_decode hd).symm.trans hj)

end Sys2Proof.Machine

/-! What the operations with more than one outcome can do (40_fifo.md R86 to R91, R93; 41_critical_section.md R101 to R104):
each outcome is a state update with a name of its own. -/

namespace Sys2Proof.Machine

/-- The FIFO after a PUSH of `d` that finds room (40_fifo.md R88). -/
def State.pushed (s : State) (d : Byte) : State :=
  { s.memWrite s.wr.toNat d with wr := nextIdx s.wr, avail := s.avail - 1 }

/-- The FIFO after a POP that finds a byte (40_fifo.md R90). -/
def State.popped (s : State) : State := { s with rd := nextIdx s.rd, avail := s.avail + 1 }

/-- The FIFO after an INIT (40_fifo.md R93). -/
def State.emptied (s : State) : State := { s with wr := 0, rd := 0, avail := BitVec.ofNat 8 Config.cap }

theorem exec_push_cases (d : Byte) (s : State) :
    (0 < s.avail.toNat ∧ exec (.push d) s = .next (s.pushed d).silent)
    ∨ (s.avail.toNat = 0 ∧ exec (.push d) s = .next s.silent) := by
  by_cases h : 0 < s.avail.toNat
  · exact .inl ⟨h, if_pos h⟩
  · exact .inr ⟨by omega, if_neg h⟩

theorem exec_pop_cases (s : State) :
    (s.avail.toNat < Config.cap ∧ exec .pop s = .next (s.popped.respond (popFoundRsp (s.memRead s.rd.toNat))))
    ∨ (Config.cap ≤ s.avail.toNat ∧ exec .pop s = .next (s.respond popEmptyRsp)) := by
  by_cases h : s.avail.toNat < Config.cap
  · exact .inl ⟨h, if_pos h⟩
  · exact .inr ⟨by omega, if_neg h⟩

theorem exec_rxArrive_cases (d : Byte) (s : State) :
    exec (.rxArrive d) s = .next ({ s with rxData := d, rxPend := true } : State).silent
    ∨ exec (.rxArrive d) s = .next s.silent
    ∨ exec (.rxArrive d) s = .next ({ s with rxData := d } : State).silent
    ∨ (s.params.rxOverrun = .stall
        ∧ exec (.rxArrive d) s = .next ({ s with rxHeld := s.rxHeld ++ [d] } : State).silent) := by
  simp only [exec, execRxArrive]
  by_cases hp : s.rxPend = false
  · exact .inl (if_pos hp)
  · rw [if_neg hp]
    cases s.params.rxOverrun with
    | dropNew => exact .inr (.inl rfl)
    | overwrite => exact .inr (.inr (.inl rfl))
    | stall => exact .inr (.inr (.inr ⟨rfl, rfl⟩))

theorem exec_csBegin_cases (s : State) :
    exec .csBegin s = .next (s.raiseFault .csOverflow (encode .csBegin))
    ∨ ∃ saved v, exec .csBegin s
        = .next (({ s with savedIe := saved, ie := false, depth := s.depth + 1 } : State).respond v) := by
  by_cases h : s.depth.toNat = Config.depthMax
  · exact .inl (if_pos h)
  · exact .inr ⟨_, _, if_neg h⟩

theorem exec_csEnd_cases (s : State) :
    exec .csEnd s = .next (s.raiseFault .csUnderflow (encode .csEnd))
    ∨ ∃ v, exec .csEnd s = .next (({ s with ie := s.ieAfterEnd, depth := s.depth - 1 } : State).respond v) := by
  by_cases h : s.depth = 0
  · exact .inl (if_pos h)
  · exact .inr ⟨_, if_neg h⟩

end Sys2Proof.Machine

/-! O59: the invariant (10_state.md R27, R28, R34, 40_fifo.md R99, 60_exceptions.md R137). One lemma for each update that
touches an element the invariant speaks of; every other update keeps it by `State.Inv.congr`. -/

namespace Sys2Proof.Machine

/-- The elements the invariant speaks of. -/
def State.invParts (s : State) :=
  (s.mem, s.wr, s.rd, s.avail, s.ie, s.depth, s.faultCode, s.faultWord, s.params, s.rxHeld)

theorem State.Inv.congr {s t : State} (hs : s.Inv) (h : t.invParts = s.invParts) : t.Inv := by
  simp only [State.invParts, Prod.mk.injEq] at h
  obtain ⟨hmem, hwr, hrd, havail, hie, hdepth, hcode, hword, hparams, hheld⟩ := h
  cases s
  cases t
  subst hmem hwr hrd havail hie hdepth hcode hword hparams hheld
  exact ⟨hs.availInRange, hs.indexRelation, hs.maskedInSection, hs.faultRecordLegal, hs.storageCanonical,
    hs.queueWritten, hs.heldOnlyUnderStall⟩

/-- Any FIFO that is sound by itself fits a sound state. -/
theorem State.Inv.withFifo {s : State} (hs : s.Inv) {mem : Memory} {wr rd : Idx} {avail : BitVec 8}
    (havail : State.AvailInRange { s with mem := mem, wr := wr, rd := rd, avail := avail })
    (hindex : State.IndexRelation { s with mem := mem, wr := wr, rd := rd, avail := avail })
    (hcanon : State.StorageCanonical { s with mem := mem, wr := wr, rd := rd, avail := avail })
    (hwritten : State.QueueWritten { s with mem := mem, wr := wr, rd := rd, avail := avail }) :
    State.Inv { s with mem := mem, wr := wr, rd := rd, avail := avail } :=
  ⟨havail, hindex, hs.maskedInSection, hs.faultRecordLegal, hcanon, hwritten, hs.heldOnlyUnderStall⟩

theorem State.used_pushed {s : State} (hr : s.AvailInRange) (ha : 0 < s.avail.toNat) (d : Byte) :
    (s.pushed d).used = s.used + 1 := by
  have hsub : (s.avail - 1).toNat = s.avail.toNat - 1 := by bv_omega
  simp only [State.AvailInRange, Config.cap] at hr
  simp only [State.used, State.pushed, Config.cap, hsub]
  omega

theorem State.used_popped {s : State} (ha : s.avail.toNat < Config.cap) : s.popped.used + 1 = s.used := by
  simp only [Config.cap] at ha
  have hadd : (s.avail + 1).toNat = s.avail.toNat + 1 := by bv_omega
  simp only [State.used, State.popped, Config.cap, hadd]
  omega

/-- The index after the newest byte of the queue is the write index (10_state.md R28). -/
theorem State.slot_used {s : State} (hi : s.IndexRelation) : s.slot s.used = s.wr.toNat := by
  have hwr := s.wr.isLt
  have hrd := s.rd.isLt
  simp only [State.IndexRelation, Config.cap] at hi
  simp only [State.slot, Config.cap]
  omega

/-- The entries of the queue lie before the write index while there is room. -/
theorem State.slot_ne_wr {s : State} (hi : s.IndexRelation) (ha : 0 < s.avail.toNat) {k : Nat} (hk : k < s.used) :
    s.slot k ≠ s.wr.toNat := by
  rw [← State.slot_used hi]
  simp only [State.used, Config.cap] at hk
  simp only [State.slot, State.used, Config.cap]
  omega

theorem State.slot_popped (s : State) (k : Nat) : s.popped.slot k = s.slot (k + 1) := by
  simp only [State.slot, State.popped, nextIdx_toNat, Config.cap]
  omega

theorem State.Inv.pushed {s : State} (hs : s.Inv) (ha : 0 < s.avail.toNat) (d : Byte) : (s.pushed d).Inv := by
  have hused := State.used_pushed hs.availInRange ha d
  refine hs.withFifo ?_ ?_ (Memory.wf_write d hs.storageCanonical (idx_lt_cap s.wr)) ?_
  · have hr := hs.availInRange
    simp only [State.AvailInRange, Config.cap] at hr ⊢
    bv_omega
  · have hi := hs.indexRelation
    have hwr := s.wr.isLt
    have hrd := s.rd.isLt
    change ((nextIdx s.wr).toNat + Config.cap - s.rd.toNat) % Config.cap = (s.pushed d).used % Config.cap
    rw [hused, nextIdx_toNat]
    simp only [State.IndexRelation, Config.cap] at hi ⊢
    omega
  · intro k hk
    change (Memory.read (Memory.write s.mem s.wr.toNat d) (s.slot k)).isSome = true
    rw [Memory.read_write]
    split
    · rfl
    · next hne =>
      have hk : k < s.used + 1 := hused ▸ hk
      have hlast : k ≠ s.used := fun he => hne (he ▸ State.slot_used hs.indexRelation)
      exact hs.queueWritten k (by omega)

theorem State.Inv.popped {s : State} (hs : s.Inv) (ha : s.avail.toNat < Config.cap) : s.popped.Inv := by
  have hused := State.used_popped ha
  refine hs.withFifo ?_ ?_ hs.storageCanonical ?_
  · simp only [State.AvailInRange, Config.cap] at ha ⊢
    bv_omega
  · have hi := hs.indexRelation
    have hwr := s.wr.isLt
    have hrd := s.rd.isLt
    change (s.wr.toNat + Config.cap - (nextIdx s.rd).toNat) % Config.cap = s.popped.used % Config.cap
    rw [nextIdx_toNat]
    simp only [State.IndexRelation, Config.cap] at hi ⊢
    omega
  · intro k hk
    change (Memory.read s.mem (s.popped.slot k)).isSome = true
    rw [State.slot_popped]
    exact hs.queueWritten (k + 1) (by have : k < s.popped.used := hk; omega)

theorem State.Inv.emptied {s : State} (hs : s.Inv) : s.emptied.Inv :=
  hs.withFifo (Nat.le_refl 128) (by decide : 128 % 128 = 0 % 128) hs.storageCanonical
    (fun k hk => absurd hk (Nat.not_lt_zero k))

theorem State.Inv.withMask {s : State} (hs : s.Inv) {ie : Bool} {depth : BitVec 8} (h : depth ≠ 0 → ie = false) :
    State.Inv { s with ie := ie, depth := depth } :=
  ⟨hs.availInRange, hs.indexRelation, h, hs.faultRecordLegal, hs.storageCanonical, hs.queueWritten,
    hs.heldOnlyUnderStall⟩

theorem State.Inv.withHeld {s : State} (hs : s.Inv) {held : List Byte}
    (h : held ≠ [] → s.params.rxOverrun = .stall) : State.Inv { s with rxHeld := held } :=
  ⟨hs.availInRange, hs.indexRelation, hs.maskedInSection, hs.faultRecordLegal, hs.storageCanonical, hs.queueWritten, h⟩

/-- The words that raise a fault (60_exceptions.md R136). -/
def FaultCode.RaisedBy (c : FaultCode) (w : Word) : Prop :=
  match c with
  | .illegalOp => legalWord w = false
  | .csUnderflow => w = 0x04000#18
  | .csOverflow => w = 0x03000#18
  | .ieInCs => w = 0x05000#18 ∨ w = 0x06000#18

theorem State.faultRecordLegal_raiseFault {s : State} (hs : s.FaultRecordLegal) {c : FaultCode} {w : Word}
    (hw : c.RaisedBy w) : (s.raiseFault c w).FaultRecordLegal := by
  by_cases hc : s.faultCode = 0#4
  · cases c <;> simp_all [State.FaultRecordLegal, FaultCode.RaisedBy, FaultCode.bits]
  · simpa [State.FaultRecordLegal, hc] using hs

theorem State.Inv.raiseFault {s : State} (hs : s.Inv) {c : FaultCode} {w : Word} (hw : c.RaisedBy w) :
    (s.raiseFault c w).Inv where
  availInRange := by simpa [State.AvailInRange] using hs.availInRange
  indexRelation := by simpa [State.IndexRelation, State.used] using hs.indexRelation
  maskedInSection := by simpa [State.MaskedInSection] using hs.maskedInSection
  faultRecordLegal := State.faultRecordLegal_raiseFault hs.faultRecordLegal hw
  storageCanonical := by simpa [State.StorageCanonical] using hs.storageCanonical
  queueWritten := by simpa [State.QueueWritten, State.used, State.slot] using hs.queueWritten
  heldOnlyUnderStall := by simpa [State.HeldOnlyUnderStall] using hs.heldOnlyUnderStall

theorem State.Inv.acknowledge {s : State} (hs : s.Inv) (src : Source) : (s.acknowledge src).Inv :=
  hs.congr (by cases src <;> rfl)

/-- A reset state is sound whatever the state before; the held bytes and the parameters stay. -/
theorem State.Inv.hardReset {s : State} (hs : s.Inv) : s.hardReset.Inv where
  availInRange := Nat.le_refl 128
  indexRelation := (by decide : 128 % 128 = 0 % 128)
  maskedInSection := fun _ => rfl
  faultRecordLegal := .inl ⟨rfl, rfl⟩
  storageCanonical := rfl
  queueWritten := fun k hk => absurd hk (Nat.not_lt_zero k)
  heldOnlyUnderStall := hs.heldOnlyUnderStall

/-- A CS_END that does not end the outermost section keeps delivery off (41_critical_section.md R103). -/
theorem State.ieAfterEnd_of_inner {s : State} (h : s.depth - 1 ≠ 0) : s.ieAfterEnd = false :=
  if_neg fun hd => h (by rw [hd]; rfl)

theorem State.Inv.setIe {s : State} (hs : s.Inv) (b : Bool) {w : Word} (hw : FaultCode.RaisedBy .ieInCs w) :
    (s.setIe b w).Inv := by
  rcases s.setIe_cases b w with ⟨hd, he⟩ | ⟨_, he⟩ <;> rw [he]
  · exact (hs.withMask (fun h => absurd hd h)).congr rfl
  · exact hs.raiseFault hw

/-- Every operation keeps the invariant. -/
theorem exec_inv {i : Instr} {s t : State} (hs : s.Inv) (h : exec i s = .next t) : t.Inv := by
  cases i with
  | nop | status | csStatus | tickRead | faultRead | tickExpire | pwrSet _ | tickInc | pwrService =>
    cases h
    exact hs.congr rfl
  | pop =>
    rcases exec_pop_cases s with ⟨ha, he⟩ | ⟨_, he⟩ <;> rw [he] at h <;> cases h
    · exact (hs.popped ha).congr rfl
    · exact hs.congr rfl
  | push d =>
    rcases exec_push_cases d s with ⟨ha, he⟩ | ⟨_, he⟩ <;> rw [he] at h <;> cases h
    · exact (hs.pushed ha d).congr rfl
    · exact hs.congr rfl
  | init =>
    cases h
    exact hs.emptied.congr rfl
  | csBegin =>
    rcases exec_csBegin_cases s with he | ⟨saved, v, he⟩ <;> rw [he] at h <;> cases h
    · exact hs.raiseFault rfl
    · exact (hs.withMask (fun _ => rfl)).congr rfl
  | csEnd =>
    rcases exec_csEnd_cases s with he | ⟨v, he⟩ <;> rw [he] at h <;> cases h
    · exact hs.raiseFault rfl
    · exact (hs.withMask State.ieAfterEnd_of_inner).congr rfl
  | intEnable =>
    cases h
    exact hs.setIe true (.inl rfl)
  | intDisable =>
    cases h
    exact hs.setIe false (.inr rfl)
  | rxArrive d =>
    rcases exec_rxArrive_cases d s with he | he | he | ⟨hstall, he⟩ <;> rw [he] at h <;> cases h
    · exact hs.congr rfl
    · exact hs.congr rfl
    · exact hs.congr rfl
    · exact (hs.withHeld (fun _ => hstall)).congr rfl

/-- Settles O59: what each kind of step does (`step_cases`) keeps the invariant. -/
theorem everyStepKeepsSoundness : Obligations.EveryStepKeepsSoundness := by
  intro s t hs h
  have htake : s.takeEvent.Inv := hs.congr rfl
  rcases step_cases h with ⟨_, rfl⟩ | ⟨w, i, _, _, _, he⟩ | ⟨w, c, _, _, hd, rfl⟩ | ⟨src, _, _, he⟩ |
    ⟨d, held, _, _, _, _, rfl⟩ | ⟨d, held, _, hh, _, he⟩ | ⟨c, e, _, rfl⟩
  · exact htake.congr rfl
  · exact exec_inv htake he
  · exact htake.raiseFault (c := .illegalOp) (legalWord_of_decode_illegal hd)
  · exact exec_inv (htake.acknowledge src) he
  · exact htake.congr rfl
  · exact exec_inv (htake.withHeld fun _ => hs.heldOnlyUnderStall (by simp [hh])) he
  · exact htake.hardReset

end Sys2Proof.Machine

/-! O22: the queue (10_state.md R29) as a list: PUSH appends to it, POP takes its head, INIT and reset empty it, every other
update that leaves storage, `rd`, `avail` and the epoch as they are leaves it too. -/

namespace Sys2Proof.Machine

theorem State.queue_congr {s t : State} (hmem : t.mem = s.mem) (hrd : t.rd = s.rd) (havail : t.avail = s.avail)
    (hepoch : t.epoch = s.epoch) : t.queue = s.queue := by
  have hslot (k : Nat) : t.slot k = s.slot k := by rw [State.slot, State.slot, hrd]
  simp only [State.queue, State.used, havail, hslot, State.memRead_congr hmem hepoch]

theorem State.queue_pushed {s : State} (hs : s.Inv) (ha : 0 < s.avail.toNat) (d : Byte) :
    (s.pushed d).queue = s.queue ++ [d] := by
  have hread (k : Nat) : (s.pushed d).memRead (s.slot k) = if s.slot k = s.wr.toNat then d else s.memRead (s.slot k) :=
    s.memRead_memWrite s.wr.toNat (s.slot k) d
  have hold : ∀ k ∈ List.range s.used, (s.pushed d).memRead (s.slot k) = s.memRead (s.slot k) := fun k hk => by
    rw [hread, if_neg (State.slot_ne_wr hs.indexRelation ha (List.mem_range.mp hk))]
  calc (s.pushed d).queue
      = (List.range (s.used + 1)).map (fun k => (s.pushed d).memRead (s.slot k)) := by
        rw [State.queue, State.used_pushed hs.availInRange ha]; rfl
    _ = (List.range s.used).map (fun k => (s.pushed d).memRead (s.slot k)) ++ [(s.pushed d).memRead (s.slot s.used)] := by
        rw [List.range_succ, List.map_append]; rfl
    _ = s.queue ++ [d] := by
        rw [List.map_congr_left hold, hread, if_pos (State.slot_used hs.indexRelation), State.queue]

theorem State.queue_of_popped {s : State} (ha : s.avail.toNat < Config.cap) :
    s.queue = s.memRead s.rd.toNat :: s.popped.queue := by
  have hfront : s.slot 0 = s.rd.toNat := Nat.mod_eq_of_lt (idx_lt_cap s.rd)
  have hread (k : Nat) : s.popped.memRead (s.popped.slot k) = s.memRead (s.slot (k + 1)) :=
    congrArg s.memRead (s.slot_popped k)
  simp only [State.queue, ← State.used_popped ha, List.range_succ_eq_map, List.map_cons, List.map_map, hfront, hread]
  rfl

theorem State.queue_of_avail_cap {s : State} (ha : s.avail.toNat = Config.cap) : s.queue = [] := by
  simp [State.queue, State.used, ha]

theorem State.queue_raiseFault (s : State) (c : FaultCode) (w : Word) : (s.raiseFault c w).queue = s.queue :=
  State.queue_congr (by simp) (by simp) (by simp) (by simp)

theorem State.queue_acknowledge (s : State) (src : Source) : (s.acknowledge src).queue = s.queue :=
  State.queue_congr (by simp) (by simp) (by simp) (by simp)

theorem State.queue_setIe (s : State) (b : Bool) (w : Word) : (s.setIe b w).queue = s.queue := by
  rcases s.setIe_cases b w with ⟨_, he⟩ | ⟨_, he⟩ <;> rw [he]
  · rfl
  · exact s.queue_raiseFault ..

/-- The operations that are no PUSH, POP or INIT leave the queue as it is. -/
theorem exec_queue {i : Instr} {s t : State} (h : exec i s = .next t) (hpush : ∀ d, i ≠ .push d) (hpop : i ≠ .pop)
    (hinit : i ≠ .init) : t.queue = s.queue := by
  cases i with
  | nop | status | csStatus | tickRead | faultRead | tickExpire | pwrSet _ | tickInc | pwrService => cases h; rfl
  | pop => exact absurd rfl hpop
  | push d => exact absurd rfl (hpush d)
  | init => exact absurd rfl hinit
  | csBegin =>
    rcases exec_csBegin_cases s with he | ⟨saved, v, he⟩ <;> rw [he] at h <;> cases h
    · exact s.queue_raiseFault ..
    · rfl
  | csEnd =>
    rcases exec_csEnd_cases s with he | ⟨v, he⟩ <;> rw [he] at h <;> cases h
    · exact s.queue_raiseFault ..
    · rfl
  | intEnable =>
    cases h
    exact s.queue_setIe ..
  | intDisable =>
    cases h
    exact s.queue_setIe ..
  | rxArrive d =>
    rcases exec_rxArrive_cases d s with he | he | he | ⟨_, he⟩ <;> rw [he] at h <;> cases h <;> rfl

theorem poppedByte_popFoundRsp (d : Byte) : Response.poppedByte ⟨false, popFoundRsp d⟩ = [d] := by
  have hfound : (popFoundRsp d).getLsbD 8 = true := by unfold popFoundRsp zext32; grind
  have hdata : (popFoundRsp d).extractLsb' 0 8 = d := by unfold popFoundRsp zext32; grind
  simp [Response.poppedByte, hfound, hdata]

theorem poppedByte_popEmptyRsp : Response.poppedByte ⟨false, popEmptyRsp⟩ = [] := by decide

/-- PUSH puts its byte at the end of the queue where there is room (40_fifo.md R88, R89). -/
theorem exec_push_queue {d : Byte} {s t : State} (hs : s.Inv) (h : exec (.push d) s = .next t) :
    t.queue = s.queue ++ if 0 < s.avail.toNat then [d] else [] := by
  rcases exec_push_cases d s with ⟨ha, he⟩ | ⟨ha, he⟩ <;> rw [he] at h <;> cases h
  · rw [if_pos ha]
    exact State.queue_pushed hs ha d
  · rw [if_neg (by omega), List.append_nil]
    rfl

/-- POP returns the front of the queue where there is one (40_fifo.md R90, R91). -/
theorem exec_pop_queue {s t : State} (h : exec .pop s = .next t) :
    ∃ r, t.rsp = some r ∧ s.queue = r.poppedByte ++ t.queue := by
  rcases exec_pop_cases s with ⟨ha, he⟩ | ⟨ha, he⟩ <;> rw [he] at h <;> cases h
  · refine ⟨_, rfl, ?_⟩
    rw [poppedByte_popFoundRsp, State.queue_of_popped ha]
    rfl
  · exact ⟨_, rfl, by rw [poppedByte_popEmptyRsp]; rfl⟩

theorem State.acceptedNext_of_ne {s : State} (hn : s.nextEvent ≠ .deliver .rx) : s.acceptedNext = [] := by
  unfold State.acceptedNext
  split
  · next he => exact absurd he hn
  · rfl

theorem State.acceptedNext_of_rx {s : State} (hn : s.nextEvent = .deliver .rx) (hm : s.mayDeliver .rx = true) :
    s.acceptedNext = if 0 < s.avail.toNat then [s.rxData] else [] := by
  simp [State.acceptedNext, hn, hm]

theorem State.returnedNext_of_pop {s t : State} {w : Word} {r : Response} (hn : s.nextEvent = .word w)
    (hd : decode w = .ok .pop) (h : step s = .next t) (hr : t.rsp = some r) : s.returnedNext = r.poppedByte := by
  simp [State.returnedNext, hn, h, hd, hr]

theorem State.returnedNext_of_ne {s : State} (hn : ∀ w, s.nextEvent = .word w → decode w ≠ .ok .pop) :
    s.returnedNext = [] := by
  unfold State.returnedNext
  split
  · next w t he _ =>
    split
    · next hd _ => exact absurd hd (hn w he)
    · rfl
  · rfl

/-- A step that neither accepts nor returns a byte leaves the queue. -/
theorem queue_step_of_same {s t : State} (hn : s.nextEvent ≠ .deliver .rx)
    (hp : ∀ w, s.nextEvent = .word w → decode w ≠ .ok .pop) (hq : t.queue = s.queue) :
    s.queue ++ s.acceptedNext = s.returnedNext ++ t.queue := by
  rw [State.acceptedNext_of_ne hn, State.returnedNext_of_ne hp, List.append_nil, List.nil_append, hq]

/-- Port-C and port-E operations but INIT (10_state.md R29). -/
theorem queue_step_of_word {s t : State} {w : Word} {i : Instr} (h : step s = .next t)
    (hn : s.nextEvent = .word w) (hport : wordPort w ≠ 0b10#2) (hd : decode w = .ok i)
    (he : exec i s.takeEvent = .next t) (hinit : i ≠ .init) :
    s.queue ++ s.acceptedNext = s.returnedNext ++ t.queue := by
  by_cases hpop : i = .pop
  · subst hpop
    obtain ⟨r, hr, hq⟩ := exec_pop_queue he
    rw [State.acceptedNext_of_ne (by simp [hn]), State.returnedNext_of_pop hn hd h hr, List.append_nil]
    exact hq
  · have hpush (d : Byte) : i ≠ .push d := ne_of_decode_of_portI hd hport (wordPort_tagWord ..)
    have hq : t.queue = s.takeEvent.queue := exec_queue he hpush hpop hinit
    refine queue_step_of_same (by simp [hn]) (fun w' hw' => ?_) hq
    obtain rfl : w = w' := by simpa [hn] using hw'
    simp [hd, hpop]

/-- Deliveries: only RX's accepts a byte (60_exceptions.md R145). -/
theorem queue_step_of_delivery {s t : State} {src : Source} (hs : s.Inv) (hn : s.nextEvent = .deliver src)
    (hm : s.mayDeliver src = true) (he : exec (deliveryInstr src s) (s.takeEvent.acknowledge src) = .next t) :
    s.queue ++ s.acceptedNext = s.returnedNext ++ t.queue := by
  have hret : s.returnedNext = [] := State.returnedNext_of_ne (by simp [hn])
  have hack : (s.takeEvent.acknowledge src).queue = s.queue := s.takeEvent.queue_acknowledge src
  by_cases hrx : src = .rx
  · subst hrx
    have hinv : (s.takeEvent.acknowledge .rx).Inv := hs.congr rfl
    rw [State.acceptedNext_of_rx hn hm, hret, List.nil_append, exec_push_queue hinv he, hack]
    rfl
  · refine queue_step_of_same (by simp [hn, hrx]) (by simp [hn]) (.trans (exec_queue he ?_ ?_ ?_) hack) <;>
      cases src <;> simp [deliveryInstr] at hrx ⊢

/-- Settles O22: each kind of step (`step_cases`) as a step of the queue. -/
theorem everyStepIsAQueueStep : Obligations.EveryStepIsAQueueStep := by
  intro s t hs h
  rcases step_cases h with ⟨hn, rfl⟩ | ⟨w, i, hn, hport, hd, he⟩ | ⟨w, c, hn, _, hd, rfl⟩ | ⟨src, hn, hm, he⟩ |
    ⟨d, held, hn, _, _, _, rfl⟩ | ⟨d, held, hn, _, _, he⟩ | ⟨c, e, hn, rfl⟩ <;> rw [hn]
  · exact ⟨by simp [Event.emptiesFifo], fun _ => queue_step_of_same (by simp [hn]) (by simp [hn]) rfl⟩
  · refine ⟨fun hinit => ?_, fun hinit => queue_step_of_word h hn hport hd he ?_⟩
    · obtain rfl : i = .init := by simpa [Event.emptiesFifo, hd] using hinit
      cases he
      exact State.queue_of_avail_cap rfl
    · simpa [Event.emptiesFifo, hd] using hinit
  · refine ⟨by simp [Event.emptiesFifo, hd], fun _ => queue_step_of_same (by simp [hn]) (by simp [hn, hd]) ?_⟩
    exact s.takeEvent.queue_raiseFault ..
  · exact ⟨by simp [Event.emptiesFifo], fun _ => queue_step_of_delivery hs hn hm he⟩
  · exact ⟨by simp [Event.emptiesFifo], fun _ => queue_step_of_same (by simp [hn]) (by simp [hn]) rfl⟩
  · have hq := exec_queue he (by simp) (by simp) (by simp)
    exact ⟨by simp [Event.emptiesFifo], fun _ => queue_step_of_same (by simp [hn]) (by simp [hn]) hq⟩
  · exact ⟨fun _ => State.queue_of_avail_cap rfl, by simp [Event.emptiesFifo]⟩

end Sys2Proof.Machine

/-! O50: the outputs (10_state.md R41): what an operation drives, and that no step reads what the step before drove. -/

namespace Sys2Proof.Machine

/-- The same state after other outputs. -/
def State.withOutputs (s : State) (r : Option Response) (e : PwrMask) : State := { s with rsp := r, pwrEvt := e }

theorem State.raiseFault_withOutputs (s : State) (r : Option Response) (e : PwrMask) (c : FaultCode) (w : Word) :
    (s.withOutputs r e).raiseFault c w = s.raiseFault c w := by
  have hcode : (s.withOutputs r e).faultCode = s.faultCode := rfl
  unfold State.raiseFault State.captureFault
  rw [hcode]
  split <;> split <;> rfl

theorem exec_withOutputs (i : Instr) (s : State) (r : Option Response) (e : PwrMask) :
    exec i (s.withOutputs r e) = exec i s := by
  have hfault := s.raiseFault_withOutputs r e
  cases i with
  | nop | pop | status | csStatus | tickRead | init | faultRead | rxArrive _ | tickExpire | pwrSet _ | push _ | tickInc
  | pwrService => rfl
  | csBegin => simp only [exec, execCsBegin, hfault]; rfl
  | csEnd => simp only [exec, execCsEnd, hfault]; rfl
  | intEnable => simp only [exec, execIntEnable, State.setIe, hfault]; rfl
  | intDisable => simp only [exec, execIntDisable, State.setIe, hfault]; rfl

theorem perform_withOutputs (ev : Event) (s : State) (r : Option Response) (e : PwrMask) :
    perform ev (s.withOutputs r e) = perform ev s := by
  cases ev with
  | word w => simp only [perform, arrive, exec_withOutputs, State.raiseFault_withOutputs]
  | deliver src =>
    have hack : (s.withOutputs r e).acknowledge src = (s.acknowledge src).withOutputs r e := by cases src <;> rfl
    have hinstr : deliveryInstr src (s.withOutputs r e) = deliveryInstr src s := by cases src <;> rfl
    simp only [perform, deliver, hack, hinstr, exec_withOutputs]
    rfl
  | offerHeld =>
    have hheld (rest : List Byte) : ({ s.withOutputs r e with rxHeld := rest } : State) =
      ({ s with rxHeld := rest } : State).withOutputs r e := rfl
    simp only [perform, offerHeld, hheld, exec_withOutputs]
    rfl
  | idle | reset _ _ => rfl

theorem step_withOutputs (s : State) (r : Option Response) (e : PwrMask) : step (s.withOutputs r e) = step s :=
  perform_withOutputs s.nextEvent s.takeEvent r e

theorem State.setIe_outputs (s : State) (b : Bool) {w : Word} (hw : wordPort w = 0b00#2) :
    (s.setIe b w).rsp.isSome = true ∧ (s.setIe b w).pwrEvt = 0 := by
  rcases s.setIe_cases b w with ⟨_, he⟩ | ⟨_, he⟩ <;> simp [he, hw]

/-- A port-C operation responds and no other does (30_encoding.md R80); only PWR_SERVICE drives `pwr_evt`, with the status it
serviced (43_power_events.md R128). -/
theorem exec_outputs {i : Instr} {s t : State} (h : exec i s = .next t) :
    (t.rsp.isSome = true ↔ wordPort (encode i) = 0b00#2) ∧ t.pwrEvt = if i = .pwrService then s.pwrStat else 0 := by
  cases i with
  | nop | status | csStatus | tickRead | init | faultRead | tickExpire | pwrSet _ | tickInc | pwrService =>
    cases h
    simp [encode]
  | pop => rcases exec_pop_cases s with ⟨_, he⟩ | ⟨_, he⟩ <;> rw [he] at h <;> cases h <;> simp [encode]
  | push d => rcases exec_push_cases d s with ⟨_, he⟩ | ⟨_, he⟩ <;> rw [he] at h <;> cases h <;> simp [encode]
  | rxArrive d =>
    rcases exec_rxArrive_cases d s with he | he | he | ⟨_, he⟩ <;> rw [he] at h <;> cases h <;> simp [encode]
  | csBegin => rcases exec_csBegin_cases s with he | ⟨_, _, he⟩ <;> rw [he] at h <;> cases h <;> simp [encode]
  | csEnd => rcases exec_csEnd_cases s with he | ⟨_, he⟩ <;> rw [he] at h <;> cases h <;> simp [encode]
  | intEnable =>
    cases h
    simp [encode, State.setIe_outputs]
  | intDisable =>
    cases h
    simp [encode, State.setIe_outputs]

/-- What a step drives, by the kind of the step (10_state.md R41). -/
theorem step_outputs {s t : State} (h : step s = .next t) :
    (t.rsp.isSome = true ↔ ∃ w, s.nextEvent = .word w ∧ wordPort w = 0b00#2)
    ∧ t.pwrEvt = if s.nextEvent = .deliver .pwr then s.pwrStat else 0 := by
  rcases step_cases h with ⟨hn, rfl⟩ | ⟨w, i, hn, hport, hd, he⟩ | ⟨w, c, hn, _, _, rfl⟩ | ⟨src, hn, _, he⟩ |
    ⟨d, held, hn, _, _, _, rfl⟩ | ⟨d, held, hn, _, _, he⟩ | ⟨c, e, hn, rfl⟩ <;> rw [hn]
  · simp
  · obtain ⟨hrsp, hevt⟩ := exec_outputs he
    have hi : i ≠ .pwrService := ne_of_decode_of_portI hd hport (wordPort_tagWord ..)
    rw [wordPort_of_decode hd] at hrsp
    simpa [hi, hrsp] using hevt
  · simp
  · obtain ⟨hrsp, hevt⟩ := exec_outputs he
    cases src <;> simpa [deliveryInstr, encode, hevt] using hrsp
  · simp
  · obtain ⟨hrsp, hevt⟩ := exec_outputs he
    simpa [encode, hevt] using hrsp
  · simp

/-- Settles O50: what each kind of step drives (`step_outputs`), and that it reads no output (`step_withOutputs`). -/
theorem outputsAreDrivenByTheirStepsOnly : Obligations.OutputsAreDrivenByTheirStepsOnly := by
  intro s t h
  obtain ⟨hrsp, hevt⟩ := step_outputs h
  exact ⟨hrsp, fun hn => hevt.trans (if_pos hn), fun hn => hevt.trans (if_neg hn),
    fun r e => (step_withOutputs s r e).trans h⟩

/-- Settles O53: no operation touches the parameters (`exec_outside`), and no other part of a step does. -/
theorem parametersAreFixed : Obligations.ParametersAreFixed := by
  intro s t h
  rcases step_cases h with ⟨_, rfl⟩ | ⟨w, i, _, _, _, he⟩ | ⟨w, c, _, _, _, rfl⟩ | ⟨src, _, _, he⟩ |
    ⟨d, held, _, _, _, _, rfl⟩ | ⟨d, held, _, _, _, he⟩ | ⟨c, e, _, rfl⟩
  · rfl
  · exact (exec_outside he).1
  · exact State.raiseFault_params ..
  · exact (exec_outside he).1.trans (State.acknowledge_params ..)
  · rfl
  · exact (exec_outside he).1
  · rfl

/-- Settles O57: the reset values are the fields of `State.atReset` (10_state.md R43). -/
theorem resetStateHoldsTheResetValues : Obligations.ResetStateHoldsTheResetValues :=
  ⟨rfl, rfl, rfl, rfl, rfl, rfl, rfl, rfl, rfl, rfl, rfl, rfl⟩

end Sys2Proof.Machine

/-! O60: a step inside a critical section that stays inside it (20_memory.md R59): `ie`, `saved_ie` and the tick counter stay,
and no delivery is taken, for `ie` is 0 (60_exceptions.md R143). -/

namespace Sys2Proof.Machine

/-- The elements that no step inside a section changes while the section stays open. -/
def State.sectionParts (s : State) := (s.ie, s.savedIe, s.tick)

theorem State.sectionParts_raiseFault (s : State) (c : FaultCode) (w : Word) :
    (s.raiseFault c w).sectionParts = s.sectionParts := by
  simp [State.sectionParts]

theorem State.setIe_of_section {s : State} (hd : s.depth ≠ 0) (b : Bool) (w : Word) :
    s.setIe b w = s.raiseFault .ieInCs w :=
  if_neg hd

/-- A CS_BEGIN inside a section saves nothing (41_critical_section.md R101). -/
theorem exec_csBegin_cases_of_section {s : State} (hd : s.depth ≠ 0) :
    exec .csBegin s = .next (s.raiseFault .csOverflow (encode .csBegin))
    ∨ ∃ v, exec .csBegin s = .next (({ s with ie := false, depth := s.depth + 1 } : State).respond v) := by
  by_cases h : s.depth.toNat = Config.depthMax
  · exact .inl (if_pos h)
  · refine .inr ⟨csRsp (s.depth + 1) s.ie, ?_⟩
    simp only [exec, execCsBegin, if_neg h, if_neg hd]

/-- Every operation but TICK_INC, from a masked state inside a section to one inside it. -/
theorem exec_sectionParts {i : Instr} {s t : State} (h : exec i s = .next t) (hi : i ≠ .tickInc)
    (hm : s.MaskedInSection) (hs : s.depth ≠ 0) (ht : t.depth ≠ 0) : t.sectionParts = s.sectionParts := by
  have hie : s.ie = false := hm hs
  cases i with
  | nop | status | csStatus | tickRead | init | faultRead | tickExpire | pwrSet _ | pwrService => cases h; rfl
  | tickInc => exact absurd rfl hi
  | pop => rcases exec_pop_cases s with ⟨_, he⟩ | ⟨_, he⟩ <;> rw [he] at h <;> cases h <;> rfl
  | push d => rcases exec_push_cases d s with ⟨_, he⟩ | ⟨_, he⟩ <;> rw [he] at h <;> cases h <;> rfl
  | rxArrive d => rcases exec_rxArrive_cases d s with he | he | he | ⟨_, he⟩ <;> rw [he] at h <;> cases h <;> rfl
  | csBegin =>
    rcases exec_csBegin_cases_of_section hs with he | ⟨v, he⟩ <;> rw [he] at h <;> cases h
    · exact s.sectionParts_raiseFault ..
    · simp [State.sectionParts, hie]
  | csEnd =>
    rcases exec_csEnd_cases s with he | ⟨v, he⟩ <;> rw [he] at h <;> cases h
    · exact s.sectionParts_raiseFault ..
    · have hinner : s.ieAfterEnd = false := State.ieAfterEnd_of_inner ht
      simp [State.sectionParts, hie, hinner]
  | intEnable =>
    cases h
    rw [State.setIe_of_section hs]
    exact s.sectionParts_raiseFault ..
  | intDisable =>
    cases h
    rw [State.setIe_of_section hs]
    exact s.sectionParts_raiseFault ..

/-- A step from a masked state inside a section is no delivery (60_exceptions.md R143). -/
theorem nextEvent_ne_deliver_of_section {s t : State} (h : step s = .next t) (hm : s.MaskedInSection) (hs : s.depth ≠ 0)
    (src : Source) : s.nextEvent ≠ .deliver src := by
  intro hn
  rcases deliver_cases src s.takeEvent with ⟨hmay, _⟩ | ⟨_, he⟩
  · have hon : s.ie = true := (State.enabled_of_mayDeliver hmay).1
    exact absurd hon (by simp [hm hs])
  · rw [step, hn, perform, he] at h
    cases h

theorem step_sectionParts {s t : State} (h : step s = .next t) (hm : s.MaskedInSection) (hs : s.depth ≠ 0)
    (ht : t.depth ≠ 0) : t.sectionParts = s.sectionParts := by
  rcases step_cases h with ⟨_, rfl⟩ | ⟨w, i, _, hport, hd, he⟩ | ⟨w, c, _, _, _, rfl⟩ | ⟨src, hn, _, _⟩ |
    ⟨d, held, _, _, _, _, rfl⟩ | ⟨d, held, _, _, _, he⟩ | ⟨c, e, _, rfl⟩
  · rfl
  · have hparts := exec_sectionParts he (ne_of_decode_of_portI hd hport (wordPort_tagWord ..)) hm hs ht
    exact hparts
  · exact s.takeEvent.sectionParts_raiseFault ..
  · exact absurd hn (nextEvent_ne_deliver_of_section h hm hs src)
  · rfl
  · have hparts := exec_sectionParts he (by simp) hm hs ht
    exact hparts
  · exact absurd rfl ht

theorem State.MaskedInSection.of_sectionParts {s t : State} (hm : s.MaskedInSection) (hs : s.depth ≠ 0)
    (h : t.sectionParts = s.sectionParts) : t.MaskedInSection :=
  fun _ => (congrArg Prod.fst h).trans (hm hs)

/-- Every state of a run of `k` steps lies inside a section. -/
def StaysInSection (k : Nat) (s : State) : Prop :=
  ∀ j, j ≤ k → ∃ u, Sys2Proof.core.run j s = .next u ∧ u.depth ≠ 0

theorem StaysInSection.depth_ne_zero {k : Nat} {s : State} (h : StaysInSection k s) : s.depth ≠ 0 := by
  obtain ⟨u, hrun, hu⟩ := h 0 (Nat.zero_le k)
  cases hrun
  exact hu

/-- The first step of a run inside a section, and the run from the state it leads to. -/
theorem StaysInSection.first_step {k : Nat} {s : State} (h : StaysInSection (k + 1) s) (hm : s.MaskedInSection) :
    ∃ u, step s = .next u ∧ StaysInSection k u ∧ u.MaskedInSection ∧ u.sectionParts = s.sectionParts := by
  obtain ⟨v, hv, _⟩ := h 1 (by omega)
  obtain ⟨u, hstep, _⟩ := run_succ hv
  have htail : StaysInSection k u := fun j hj => by
    rw [← run_next hstep]
    exact h (j + 1) (Nat.succ_le_succ hj)
  have hparts := step_sectionParts hstep hm h.depth_ne_zero htail.depth_ne_zero
  exact ⟨u, hstep, htail, hm.of_sectionParts h.depth_ne_zero hparts, hparts⟩

theorem run_sectionParts {k : Nat} {s t : State} (hm : s.MaskedInSection) (hstay : StaysInSection k s)
    (h : Sys2Proof.core.run k s = .next t) : t.sectionParts = s.sectionParts := by
  induction k generalizing s with
  | zero => cases h; rfl
  | succ k ih =>
    obtain ⟨u, hstep, htail, hmu, hparts⟩ := hstay.first_step hm
    rw [run_next hstep] at h
    exact (ih hmu htail h).trans hparts

theorem run_takes_no_delivery_of_section {k : Nat} {s : State} (hm : s.MaskedInSection) (hstay : StaysInSection k s)
    (j : Nat) (u : State) (hj : j < k) (h : Sys2Proof.core.run j s = .next u) (src : Source) :
    u.nextEvent ≠ .deliver src := by
  induction k generalizing s j with
  | zero => exact absurd hj (Nat.not_lt_zero j)
  | succ k ih =>
    obtain ⟨v, hstep, htail, hmv, _⟩ := hstay.first_step hm
    cases j with
    | zero =>
      cases h
      exact nextEvent_ne_deliver_of_section hstep hm hstay.depth_ne_zero src
    | succ j =>
      rw [run_next hstep] at h
      exact ih hmv htail j (Nat.lt_of_succ_lt_succ hj) h

/-- A run without an RX delivery accepts no byte (40_fifo.md R95). -/
theorem acceptedIn_of_no_rx_delivery {k : Nat} {s : State}
    (h : ∀ j u, j < k → Sys2Proof.core.run j s = .next u → u.nextEvent ≠ .deliver .rx) : acceptedIn k s = [] := by
  induction k generalizing s with
  | zero => rfl
  | succ k ih =>
    have hfirst : s.acceptedNext = [] := State.acceptedNext_of_ne (h 0 s (Nat.succ_pos k) rfl)
    rw [acceptedIn, hfirst, List.nil_append]
    cases hstep : step s with
    | next v => exact ih fun j u hj hrun => h (j + 1) u (Nat.succ_lt_succ hj) ((run_next hstep).trans hrun)
    | fault r => rfl
    | refused r => rfl

/-- Settles O60: no step inside a section changes `sectionParts` or is a delivery, by induction on the run's length. -/
theorem noDeliveryInsideASection : Obligations.NoDeliveryInsideASection := by
  intro k s t hm hstay h
  have hstay : StaysInSection k s := hstay
  have hnone := run_takes_no_delivery_of_section hm hstay
  have hparts : (t.ie, t.savedIe, t.tick) = (s.ie, s.savedIe, s.tick) := run_sectionParts hm hstay h
  simp only [Prod.mk.injEq] at hparts
  obtain ⟨hie, hsaved, htick⟩ := hparts
  exact ⟨hie.trans (hm hstay.depth_ne_zero), hsaved, hnone,
    acceptedIn_of_no_rx_delivery fun j u hj hrun => hnone j u hj hrun .rx, htick⟩

end Sys2Proof.Machine

/-! O25: storage (10_state.md R22) is written by PUSH alone, and only an RX delivery performs one (20_memory.md R47, R64). -/

namespace Sys2Proof.Machine

theorem State.mem_setIe (s : State) (b : Bool) (w : Word) : (s.setIe b w).mem = s.mem := by
  rcases s.setIe_cases b w with ⟨_, he⟩ | ⟨_, he⟩ <;> simp [he]

theorem exec_mem {i : Instr} {s t : State} (h : exec i s = .next t) (hpush : ∀ d, i ≠ .push d) : t.mem = s.mem := by
  cases i with
  | nop | status | csStatus | tickRead | init | faultRead | tickExpire | pwrSet _ | tickInc | pwrService => cases h; rfl
  | push d => exact absurd rfl (hpush d)
  | pop => rcases exec_pop_cases s with ⟨_, he⟩ | ⟨_, he⟩ <;> rw [he] at h <;> cases h <;> rfl
  | rxArrive d => rcases exec_rxArrive_cases d s with he | he | he | ⟨_, he⟩ <;> rw [he] at h <;> cases h <;> rfl
  | csBegin => rcases exec_csBegin_cases s with he | ⟨_, _, he⟩ <;> rw [he] at h <;> cases h <;> simp
  | csEnd => rcases exec_csEnd_cases s with he | ⟨_, he⟩ <;> rw [he] at h <;> cases h <;> simp
  | intEnable =>
    cases h
    exact s.mem_setIe ..
  | intDisable =>
    cases h
    exact s.mem_setIe ..

/-- What an entry reads as stays over every operation but PUSH. -/
theorem exec_memRead {i : Instr} {s t : State} (h : exec i s = .next t) (hpush : ∀ d, i ≠ .push d) (a : Nat) :
    t.memRead a = s.memRead a :=
  State.memRead_congr (exec_mem h hpush) (exec_outside h).2.2 a

theorem deliveryInstr_ne_push {src : Source} (h : src ≠ .rx) (s : State) (d : Byte) : deliveryInstr src s ≠ .push d := by
  cases src <;> simp [deliveryInstr] at h ⊢

/-- Settles O25: of the kinds of step (`step_cases`) only an RX delivery performs a PUSH, and only a reset starts an epoch. -/
theorem onlyAnRxDeliveryWritesStorage : Obligations.OnlyAnRxDeliveryWritesStorage := by
  intro s t h hreset hrx a
  rcases step_cases h with ⟨_, rfl⟩ | ⟨w, i, _, hport, hd, he⟩ | ⟨w, c, _, _, _, rfl⟩ | ⟨src, hn, _, he⟩ |
    ⟨d, held, _, _, _, _, rfl⟩ | ⟨d, held, _, _, _, he⟩ | ⟨c, e, hn, rfl⟩
  · rfl
  · exact exec_memRead he (fun d => ne_of_decode_of_portI hd hport (wordPort_tagWord ..)) a
  · exact State.memRead_congr (by simp) (by simp) a
  · have hsrc : src ≠ .rx := fun hs => hrx (hs ▸ hn)
    calc t.memRead a
        = (s.takeEvent.acknowledge src).memRead a := exec_memRead he (deliveryInstr_ne_push hsrc s) a
      _ = s.memRead a := State.memRead_congr (by simp) (by simp) a
  · rfl
  · exact exec_memRead he (by simp) a
  · exact absurd hn (hreset c e)

end Sys2Proof.Machine

/-! O54: performing an operation again (20_memory.md R55). What it does a second time is an update that the first left in place:
a merge or a write-one-to-clear of `pwr_stat`, an enable already set, a fault already recorded, a latch already full. -/

namespace Sys2Proof.Machine

/-- `u` and `t` differ in outputs and held bytes at most. -/
def State.SameBlock (u t : State) : Prop := u = { t with rsp := u.rsp, pwrEvt := u.pwrEvt, rxHeld := u.rxHeld }

theorem FaultCode.bits_ne_zero (c : FaultCode) : c.bits ≠ 0 := by cases c <;> decide

/-- Only the first fault is recorded (60_exceptions.md R138). -/
theorem State.raiseFault_of_recorded {s : State} (h : s.faultCode ≠ 0) (c : FaultCode) (w : Word) :
    (s.raiseFault c w).SameBlock s := by
  rw [State.raiseFault, State.captureFault, if_neg h]
  split <;> rfl

theorem State.faultCode_raiseFault_ne_zero (s : State) (c : FaultCode) (w : Word) : (s.raiseFault c w).faultCode ≠ 0 := by
  rw [State.raiseFault_faultCode]
  split
  · exact c.bits_ne_zero
  · next h => exact h

theorem State.setIe_twice (s : State) (b : Bool) (w : Word) : ((s.setIe b w).setIe b w).SameBlock (s.setIe b w) := by
  rcases s.setIe_cases b w with ⟨hd, he⟩ | ⟨hd, he⟩ <;> rw [he]
  · have hd' : (({ s with ie := b } : State).respond 0).depth = 0 := hd
    rw [State.setIe, if_pos hd']
    rfl
  · rw [State.setIe_of_section (by simpa using hd)]
    exact State.raiseFault_of_recorded (s.faultCode_raiseFault_ne_zero _ _) _ _

/-- An RX_ARRIVE leaves the latch full, under Overwrite with its own byte (40_fifo.md R86, R87). -/
theorem exec_rxArrive_latch {d : Byte} {s t : State} (h : exec (.rxArrive d) s = .next t) :
    t.rxPend = true ∧ (t.params.rxOverrun = .overwrite → t.rxData = d) := by
  simp only [exec, execRxArrive] at h
  by_cases hp : s.rxPend = false
  · rw [if_pos hp] at h
    cases h
    exact ⟨rfl, fun _ => rfl⟩
  · rw [if_neg hp] at h
    cases ho : s.params.rxOverrun <;> rw [ho] at h <;> cases h <;> simp [hp, ho]

/-- An RX_ARRIVE at a full latch changes nothing but an overwritten byte (40_fifo.md R87). -/
theorem exec_rxArrive_of_full {d : Byte} {s : State} (hp : s.rxPend = true)
    (hd : s.params.rxOverrun = .overwrite → s.rxData = d) :
    ∃ u, exec (.rxArrive d) s = .next u ∧ u.SameBlock s := by
  rw [exec, execRxArrive, if_neg (by simp [hp])]
  cases ho : s.params.rxOverrun with
  | dropNew => exact ⟨_, rfl, rfl⟩
  | stall => exact ⟨_, rfl, rfl⟩
  | overwrite =>
    obtain rfl := hd ho
    exact ⟨_, rfl, rfl⟩

/-- A condition that is pending merges (43_power_events.md R126). -/
theorem exec_pwrSet_twice {m : PwrMask} {s t : State} (h : exec (.pwrSet m) s = .next t) :
    ∃ u, exec (.pwrSet m) t = .next u ∧ u.SameBlock t := by
  cases h
  have hmerge : s.pwrStat ||| m ||| m = s.pwrStat ||| m := by rw [BitVec.or_assoc, BitVec.or_self]
  refine ⟨_, rfl, ?_⟩
  simp [State.SameBlock, State.silent, hmerge]

theorem writeOneToClear_self (v : PwrMask) : writeOneToClear v v = 0 := by simp [writeOneToClear]

/-- A second service finds no condition pending (43_power_events.md R128). -/
theorem exec_pwrService_twice {s t : State} (h : exec .pwrService s = .next t) :
    ∃ u, exec .pwrService t = .next u ∧ u.SameBlock t := by
  cases h
  refine ⟨_, rfl, ?_⟩
  simp [State.SameBlock, State.emitPwrEvt, writeOneToClear_self]

/-- Settles O54: each listed operation, run in the state it led to, finds its own update in place. -/
theorem listedOperationsAreIdempotent : Obligations.ListedOperationsAreIdempotent := by
  intro i s t ⟨hpop, hbegin, hend, htick, hpush⟩ h
  change ∃ u, exec i t = .next u ∧ u.SameBlock t
  cases i with
  | nop | status | csStatus | tickRead | faultRead | init | tickExpire => cases h; exact ⟨_, rfl, rfl⟩
  | intEnable => cases h; exact ⟨_, rfl, s.setIe_twice ..⟩
  | intDisable => cases h; exact ⟨_, rfl, s.setIe_twice ..⟩
  | rxArrive d =>
    obtain ⟨hfull, hdata⟩ := exec_rxArrive_latch h
    exact exec_rxArrive_of_full hfull hdata
  | pwrSet m => exact exec_pwrSet_twice h
  | pwrService => exact exec_pwrService_twice h
  | pop => exact absurd rfl hpop
  | csBegin => exact absurd rfl hbegin
  | csEnd => exact absurd rfl hend
  | tickInc => exact absurd rfl htick
  | push d => exact absurd rfl (hpush d)

/-- Settles O7: every branch of every operation answers a next state. -/
theorem everyOperationCompletes : Obligations.EveryOperationCompletes := by
  intro i s
  cases i with
  | nop | status | csStatus | tickRead | init | faultRead | tickExpire | pwrSet _ | tickInc | pwrService | intEnable
  | intDisable => exact ⟨_, rfl⟩
  | pop => rcases exec_pop_cases s with ⟨_, he⟩ | ⟨_, he⟩ <;> exact ⟨_, he⟩
  | push d => rcases exec_push_cases d s with ⟨_, he⟩ | ⟨_, he⟩ <;> exact ⟨_, he⟩
  | rxArrive d => rcases exec_rxArrive_cases d s with he | he | he | ⟨_, he⟩ <;> exact ⟨_, he⟩
  | csBegin => rcases exec_csBegin_cases s with he | ⟨_, _, he⟩ <;> exact ⟨_, he⟩
  | csEnd => rcases exec_csEnd_cases s with he | ⟨_, he⟩ <;> exact ⟨_, he⟩

end Sys2Proof.Machine

/-! O3, O2, O1: `decode` and `encode` are inverse (30_encoding.md R65 to R73, R82). A word whose `rsv` is zero is put together
again from its three other fields, and the fields of the word of an operation are the ones `tagWord` was given. -/

namespace Sys2Proof.Machine

@[simp] theorem wordOp_tagWord (p : BitVec 2) (o : BitVec 4) (b : Byte) : wordOp (tagWord p o b) = o := by
  unfold wordOp tagWord
  grind

@[simp] theorem wordRsv_tagWord (p : BitVec 2) (o : BitVec 4) (b : Byte) : wordRsv (tagWord p o b) = 0 := by
  unfold wordRsv tagWord
  grind

@[simp] theorem wordImm8_tagWord (p : BitVec 2) (o : BitVec 4) (b : Byte) : wordImm8 (tagWord p o b) = b := by
  unfold wordImm8 tagWord
  grind

theorem tagWord_of_rsv_zero {w : Word} (h : wordRsv w = 0) : tagWord (wordPort w) (wordOp w) (wordImm8 w) = w := by
  unfold wordRsv at h
  unfold tagWord wordPort wordOp wordImm8
  grind

/-- The fields determine the word. -/
theorem tagWord_eq_of_fields {w : Word} {p : BitVec 2} {o : BitVec 4} {b : Byte} (hp : wordPort w = p)
    (ho : (wordOp w).toNat = o.toNat) (hr : wordRsv w = 0) (hb : wordImm8 w = b) : tagWord p o b = w := by
  have ho : wordOp w = o := BitVec.eq_of_toNat_eq ho
  rw [← hp, ← ho, ← hb, tagWord_of_rsv_zero hr]

theorem decodePlain_eq_ok {w : Word} {i j : Instr} :
    decodePlain w j = .ok i ↔ wordRsv w = 0 ∧ wordImm8 w = 0 ∧ j = i := by
  by_cases hr : wordRsv w = 0#4 <;> by_cases hb : wordImm8 w = 0#8 <;> simp [decodePlain, hr, hb]

theorem decodeByte_eq_ok {w : Word} {i : Instr} {mk : Byte → Instr} :
    decodeByte w mk = .ok i ↔ wordRsv w = 0 ∧ mk (wordImm8 w) = i := by
  by_cases hr : wordRsv w = 0#4 <;> simp [decodeByte, hr]

theorem decodeMask_eq_ok {w : Word} {i : Instr} {mk : PwrMask → Instr} :
    decodeMask w mk = .ok i ↔ wordRsv w = 0 ∧ (wordImm8 w).extractLsb' 4 4 = 0 ∧ mk ((wordImm8 w).extractLsb' 0 4) = i := by
  by_cases hr : wordRsv w = 0#4 <;> by_cases hz : (wordImm8 w).extractLsb' 4 4 = 0#4 <;> simp [decodeMask, hr, hz]

theorem encode_of_decodePlain {w : Word} {p : BitVec 2} {o : BitVec 4} {i j : Instr} (h : decodePlain w j = .ok i)
    (hj : encode j = tagWord p o 0) (hp : wordPort w = p) (ho : (wordOp w).toNat = o.toNat) : encode i = w := by
  obtain ⟨hr, hb, rfl⟩ := decodePlain_eq_ok.mp h
  rw [hj, tagWord_eq_of_fields hp ho hr hb]

theorem encode_of_decodeByte {w : Word} {p : BitVec 2} {o : BitVec 4} {i : Instr} {mk : Byte → Instr}
    (h : decodeByte w mk = .ok i) (hmk : ∀ d, encode (mk d) = tagWord p o d) (hp : wordPort w = p)
    (ho : (wordOp w).toNat = o.toNat) : encode i = w := by
  obtain ⟨hr, rfl⟩ := decodeByte_eq_ok.mp h
  rw [hmk, tagWord_eq_of_fields hp ho hr rfl]

theorem zero_append_low_of_high_zero {b : Byte} (h : b.extractLsb' 4 4 = 0) : 0#4 ++ b.extractLsb' 0 4 = b := by
  grind

theorem encode_of_decodeMask {w : Word} {p : BitVec 2} {o : BitVec 4} {i : Instr} {mk : PwrMask → Instr}
    (h : decodeMask w mk = .ok i) (hmk : ∀ m, encode (mk m) = tagWord p o (0#4 ++ m)) (hp : wordPort w = p)
    (ho : (wordOp w).toNat = o.toNat) : encode i = w := by
  obtain ⟨hr, hz, rfl⟩ := decodeMask_eq_ok.mp h
  rw [hmk, zero_append_low_of_high_zero hz, tagWord_eq_of_fields hp ho hr rfl]

theorem encode_of_decodePortC {w : Word} {i : Instr} (hp : wordPort w = 0b00) (h : decodePortC w = .ok i) :
    encode i = w := by
  unfold decodePortC at h
  split at h
  case h_12 => cases h
  all_goals next ho => exact encode_of_decodePlain h rfl hp ho

theorem encode_of_decodePortE {w : Word} {i : Instr} (hp : wordPort w = 0b01) (h : decodePortE w = .ok i) :
    encode i = w := by
  unfold decodePortE at h
  split at h
  · next ho => exact encode_of_decodeByte h (fun _ => rfl) hp ho
  · next ho => exact encode_of_decodePlain h rfl hp ho
  · next ho => exact encode_of_decodeMask h (fun _ => rfl) hp ho
  · cases h

theorem encode_of_decodePortI {w : Word} {i : Instr} (hp : wordPort w = 0b10) (h : decodePortI w = .ok i) :
    encode i = w := by
  unfold decodePortI at h
  split at h
  · next ho => exact encode_of_decodeByte h (fun _ => rfl) hp ho
  · next ho => exact encode_of_decodePlain h rfl hp ho
  · next ho => exact encode_of_decodePlain h rfl hp ho
  · cases h

/-- Decoding loses nothing of the word (30_encoding.md R82): the illegal words have no operation. -/
theorem encode_of_decode {w : Word} {i : Instr} (h : decode w = .ok i) : encode i = w := by
  unfold decode at h
  split at h
  · next hp => exact encode_of_decodePortC (BitVec.eq_of_toNat_eq hp) h
  · next hp => exact encode_of_decodePortE (BitVec.eq_of_toNat_eq hp) h
  · next hp => exact encode_of_decodePortI (BitVec.eq_of_toNat_eq hp) h
  · cases h

theorem extractLsb'_high_zero_append (m : PwrMask) : (0#4 ++ m).extractLsb' 4 4 = 0 := by grind

theorem extractLsb'_low_zero_append (m : PwrMask) : (0#4 ++ m).extractLsb' 0 4 = m := by grind

@[simp] theorem decode_encode (i : Instr) : decode (encode i) = .ok i := by
  cases i with
  | nop | pop | status | csBegin | csEnd | intEnable | intDisable | csStatus | tickRead | init | faultRead | tickExpire
  | tickInc | pwrService => rfl
  | rxArrive d => simp [encode, decode, decodePortE, decodeByte]
  | pwrSet m => simp [encode, decode, decodePortE, decodeMask, extractLsb'_high_zero_append, extractLsb'_low_zero_append]
  | push d => simp [encode, decode, decodePortI, decodeByte]

/-- Settles O3: `encode_of_decode` one way, `decode_encode` the other. -/
theorem decodeAndEncodeAreInverse : Obligations.DecodeAndEncodeAreInverse :=
  fun _ i => ⟨encode_of_decode, fun h => h ▸ decode_encode i⟩

open Laws in
theorem legalWord_encode (i : Instr) : legalWord (encode i) = true := by
  cases i with
  | nop => exact EncodesLegally.nop
  | pop => exact EncodesLegally.pop
  | status => exact EncodesLegally.status
  | csBegin => exact EncodesLegally.csBegin
  | csEnd => exact EncodesLegally.csEnd
  | intEnable => exact EncodesLegally.intEnable
  | intDisable => exact EncodesLegally.intDisable
  | csStatus => exact EncodesLegally.csStatus
  | tickRead => exact EncodesLegally.tickRead
  | init => exact EncodesLegally.init
  | faultRead => exact EncodesLegally.faultRead
  | rxArrive d => exact EncodesLegally.rxArrive d
  | tickExpire => exact EncodesLegally.tickExpire
  | pwrSet m => exact EncodesLegally.pwrSet m
  | push d => exact EncodesLegally.push d
  | tickInc => exact EncodesLegally.tickInc
  | pwrService => exact EncodesLegally.pwrService

/-- Settles O2: a word that decodes is the word of its operation, and that is legal; the converse goes along the rule's lines. -/
theorem decodeAcceptsExactlyLegalWords : Obligations.DecodeAcceptsExactlyLegalWords :=
  fun _ => ⟨fun ⟨i, hi⟩ => encode_of_decode hi ▸ legalWord_encode i, decode_ok_of_legal⟩

/-- Settles O1: each of the seven words is the word of its operation. -/
theorem wordsOfEveryFamilyDecode : Obligations.WordsOfEveryFamilyDecode :=
  ⟨decode_encode .pop, decode_encode .csBegin, decode_encode .faultRead, decode_encode (.rxArrive 0x41),
    decode_encode .tickExpire, decode_encode (.pwrSet 0b1001), decode_encode (.push 0x41)⟩

end Sys2Proof.Machine

/-! O4: the opcode table (30_encoding.md R84) has a row for every legal word, and no two of its rows share a word: between any
two there is a bit that both fix, each to another value. -/

namespace Sys2Proof.Machine

theorem accepts_iff (r : OpRow) (w : Word) : r.accepts w = true ↔ w &&& r.mask = r.pat := beq_iff_eq

theorem opcodeRows_disjoint : opcodeRows.Pairwise (fun r q => r.pat &&& q.mask ≠ q.pat &&& r.mask) := by decide

theorem pat_and_mask_eq_of_accepts {r q : OpRow} {w : Word} (hr : r.accepts w = true) (hq : q.accepts w = true) :
    r.pat &&& q.mask = q.pat &&& r.mask := by
  rw [accepts_iff] at hr hq
  rw [← hr, ← hq, BitVec.and_assoc, BitVec.and_assoc, BitVec.and_comm r.mask]

theorem mem_matchingRows {r : OpRow} {w : Word} : r ∈ matchingRows w ↔ r ∈ opcodeRows ∧ r.accepts w = true :=
  List.mem_filter

theorem length_matchingRows_le_one (w : Word) : (matchingRows w).length ≤ 1 := by
  have hdisjoint : (matchingRows w).Pairwise (fun r q => r.pat &&& q.mask ≠ q.pat &&& r.mask) :=
    opcodeRows_disjoint.filter _
  have haccepts : ∀ r ∈ matchingRows w, r.accepts w = true := fun r hr => (mem_matchingRows.mp hr).2
  match hrows : matchingRows w with
  | [] | [_] => simp
  | r :: q :: _ =>
    rw [hrows] at hdisjoint haccepts
    have hne := List.rel_of_pairwise_cons hdisjoint (List.mem_cons_self ..)
    exact absurd (pat_and_mask_eq_of_accepts (haccepts r (by simp)) (haccepts q (by simp))) hne

/-- A word agrees with its row in every slice that the row fixes. -/
theorem slice_of_accepts {r : OpRow} {w : Word} (h : r.accepts w = true) {a n : Nat}
    (hmask : r.mask.extractLsb' a n = BitVec.allOnes n) : w.extractLsb' a n = r.pat.extractLsb' a n := by
  rw [← (accepts_iff r w).mp h, BitVec.extractLsb'_and, hmask, BitVec.and_allOnes]

/-- The three masks of the table: no operand bits, the data byte, the mask of conditions. -/
theorem opcodeRows_operandBits : ∀ r ∈ opcodeRows,
    (r.mask = BitVec.allOnes 18 ∧ legalWord r.pat = true)
    ∨ (r.mask = 0x3FF00#18 ∧ (r.pat = 0x11000#18 ∨ r.pat = 0x21000#18))
    ∨ (r.mask = 0x3FFF0#18 ∧ r.pat = 0x13000#18) := by decide

theorem legalWord_of_accepts {r : OpRow} {w : Word} (hr : r ∈ opcodeRows) (h : r.accepts w = true) :
    legalWord w = true := by
  have slice (a n : Nat) := slice_of_accepts h (a := a) (n := n)
  rcases opcodeRows_operandBits r hr with ⟨hm, hlegal⟩ | ⟨hm, hpat⟩ | ⟨hm, hpat⟩
  · have hw : w = r.pat := by rw [← (accepts_iff r w).mp h, hm, BitVec.and_allOnes]
    exact hw ▸ hlegal
  · rw [hm] at slice
    rcases hpat with hpat | hpat <;> rw [hpat] at slice <;>
      simp [legalWord, slice 16 2 (by decide), slice 12 4 (by decide), slice 8 4 (by decide)]
  · rw [hm, hpat] at slice
    simp [legalWord, slice 16 2 (by decide), slice 12 4 (by decide), slice 4 8 (by decide)]

theorem getElem_byteMask (i : Nat) (h : i < 18) : (0x3FF00#18)[i] = decide (8 ≤ i) := by
  revert i
  decide

theorem getElem_pwrMask (i : Nat) (h : i < 18) : (0x3FFF0#18)[i] = decide (4 ≤ i) := by
  revert i
  decide

theorem tagWord_and_byteMask (p : BitVec 2) (o : BitVec 4) (b : Byte) : tagWord p o b &&& 0x3FF00#18 = tagWord p o 0 := by
  unfold tagWord
  grind [getElem_byteMask]

theorem tagWord_and_pwrMask (p : BitVec 2) (o : BitVec 4) (m : PwrMask) :
    tagWord p o (0#4 ++ m) &&& 0x3FFF0#18 = tagWord p o 0 := by
  unfold tagWord
  grind [getElem_pwrMask]

theorem exists_row_accepts_encode (i : Instr) : ∃ r ∈ opcodeRows, r.accepts (encode i) = true := by
  cases i with
  | nop | pop | status | csBegin | csEnd | intEnable | intDisable | csStatus | tickRead | init | faultRead | tickExpire
  | tickInc | pwrService => decide
  | rxArrive d => exact ⟨⟨"RX_ARRIVE", 0x11000, 0x3FF00⟩, by decide, (accepts_iff ..).mpr (tagWord_and_byteMask ..)⟩
  | pwrSet m => exact ⟨⟨"PWR_SET", 0x13000, 0x3FFF0⟩, by decide, (accepts_iff ..).mpr (tagWord_and_pwrMask ..)⟩
  | push d => exact ⟨⟨"PUSH", 0x21000, 0x3FF00⟩, by decide, (accepts_iff ..).mpr (tagWord_and_byteMask ..)⟩

theorem matchingRows_eq_nil_iff {w : Word} : matchingRows w = [] ↔ legalWord w = false := by
  rw [List.eq_nil_iff_forall_not_mem, ← Bool.not_eq_true, ← decodeAcceptsExactlyLegalWords w]
  constructor
  · rintro hnone ⟨i, hi⟩
    obtain ⟨r, hr, ha⟩ := exists_row_accepts_encode i
    exact hnone r (mem_matchingRows.mpr ⟨hr, encode_of_decode hi ▸ ha⟩)
  · intro hillegal r hr
    obtain ⟨hr, ha⟩ := mem_matchingRows.mp hr
    exact hillegal (decode_ok_of_legal (legalWord_of_accepts hr ha))

/-- Settles O4: no word matches two rows, and the words that match none are the illegal ones. -/
theorem legalWordMatchesExactlyOneRow : Obligations.LegalWordMatchesExactlyOneRow := by
  intro w
  have hle := length_matchingRows_le_one w
  split
  · next hlegal =>
    have hpos : 0 < (matchingRows w).length := by
      rw [List.length_pos_iff, Ne, matchingRows_eq_nil_iff]
      simp [hlegal]
    omega
  · next hillegal =>
    rw [matchingRows_eq_nil_iff.mpr (Bool.eq_false_of_not_eq_true hillegal), List.length_nil]

end Sys2Proof.Machine

/-! O8: an illegal word (30_encoding.md R75, 60_exceptions.md R136, R137). -/

namespace Sys2Proof.Machine

/-- The whole of `raiseFault` as one update (60_exceptions.md R137, R138). -/
theorem State.raiseFault_eq (s : State) (c : FaultCode) (w : Word) :
    s.raiseFault c w = { s with
      faultCode := if s.faultCode = 0 then c.bits else s.faultCode
      faultWord := if s.faultCode = 0 then w else s.faultWord
      rsp := if wordPort w = 0b00#2 then some ⟨true, 0⟩ else none
      pwrEvt := 0 } := by
  unfold State.raiseFault State.captureFault
  by_cases hp : wordPort w = 0b00#2 <;> by_cases hc : s.faultCode = 0 <;> simp only [hp, hc, if_true, if_false] <;> rfl

theorem arrive_of_illegal {s : State} {w : Word} (hp : wordPort w ≠ 0b10#2) (hl : legalWord w = false) :
    arrive w s = .next (s.raiseFault .illegalOp w) := by
  rcases arrive_cases w s with ⟨hport, _⟩ | ⟨_, i, hd, _⟩ | ⟨_, _, he⟩
  · exact absurd hport hp
  · exact absurd ((decodeAcceptsExactlyLegalWords w).mp ⟨i, hd⟩) (by simp [hl])
  · exact he

/-- Settles O8: the word is taken off the trace and raises ILLEGAL_OP, which does what `State.raiseFault_eq` says. -/
theorem illegalWordOnlyRaisesIllegalOp : Obligations.IllegalWordOnlyRaisesIllegalOp := by
  intro s w rest ht hp hl
  have hstep : step s = .next (({ s with trace := rest } : State).raiseFault .illegalOp w) :=
    (step_takes ht).trans (arrive_of_illegal hp hl)
  rw [hstep, State.raiseFault_eq]
  rfl

end Sys2Proof.Machine

/-! O35: READ_BYTE (30_encoding.md R79), CS_BEGIN, POP and CS_END from depth 0: the outermost section opens, POP reads nothing of
it, and closing it restores the enable. -/

namespace Sys2Proof.Machine

/-- `s` inside an outermost section, which holds the enable it was opened with (41_critical_section.md R101), with `tr` to come. -/
def State.inSection (s : State) (tr : List Event) : State :=
  { s with savedIe := s.ie, ie := false, depth := 1, trace := tr }

theorem exec_csBegin_of_depth_zero {s : State} (h : s.depth = 0) :
    exec .csBegin s = .next ((s.inSection s.trace).respond (csRsp 1 s.ie)) := by
  have hroom : s.depth.toNat ≠ Config.depthMax := by rw [h]; decide
  have hdepth : s.depth + 1 = 1 := by rw [h]; rfl
  simp only [exec, execCsBegin, if_neg hroom, if_pos h, hdepth]
  rfl

/-- The outermost CS_END restores the enable (41_critical_section.md R103). -/
theorem exec_csEnd_inSection (s : State) (tr : List Event) :
    exec .csEnd (s.inSection tr)
      = .next (({ s.inSection tr with ie := s.ie, depth := 0 } : State).respond (csRsp 0 s.ie)) := by
  simp [exec, execCsEnd, State.ieAfterEnd, State.inSection]

/-- POP changes the read index and the fill count, and drives the outputs. -/
theorem exec_pop_frame {s t : State} (h : exec .pop s = .next t) :
    t = { s with rd := t.rd, avail := t.avail, rsp := t.rsp, pwrEvt := t.pwrEvt } := by
  rcases exec_pop_cases s with ⟨_, he⟩ | ⟨_, he⟩ <;> rw [he] at h <;> cases h <;> rfl

/-- POP does inside a section what it does outside: it neither reads nor changes the critical-section machine and the trace. -/
theorem exec_pop_inSection {s p : State} (h : exec .pop s = .next p) (tr : List Event) :
    exec .pop (s.inSection tr) = .next (p.inSection tr) := by
  rcases exec_pop_cases s with ⟨ha, he⟩ | ⟨ha, he⟩ <;> rw [he] at h <;> cases h
  · exact if_pos ha
  · exact if_neg (Nat.not_lt.mpr ha)

theorem step_csBegin_of_depth_zero {s : State} {tr : List Event} (hd : s.depth = 0)
    (ht : s.trace = .word 0x03000#18 :: tr) : step s = .next ((s.inSection tr).respond (csRsp 1 s.ie)) :=
  (step_of_word ht (by decide) (decode_encode .csBegin)).trans (exec_csBegin_of_depth_zero hd)

theorem step_pop_inSection {s p : State} (h : exec .pop s = .next p) (v : RspVal) (tr : List Event) :
    step ((s.inSection (.word 0x01000#18 :: tr)).respond v) = .next (p.inSection tr) := by
  have hpop : step (s.inSection (.word 0x01000#18 :: tr)) = exec .pop (s.inSection tr) :=
    step_of_word rfl (by decide) (decode_encode .pop)
  calc step ((s.inSection (.word 0x01000#18 :: tr)).respond v)
      = step (s.inSection (.word 0x01000#18 :: tr)) := step_withOutputs _ _ _
    _ = .next (p.inSection tr) := hpop.trans (exec_pop_inSection h tr)

theorem step_csEnd_inSection (s : State) (tr : List Event) :
    step (s.inSection (.word 0x04000#18 :: tr))
      = .next (({ s.inSection tr with ie := s.ie, depth := 0 } : State).respond (csRsp 0 s.ie)) := by
  have hend : step (s.inSection (.word 0x04000#18 :: tr)) = exec .csEnd (s.inSection tr) :=
    step_of_word rfl (by decide) (decode_encode .csEnd)
  exact hend.trans (exec_csEnd_inSection s tr)

/-- Settles O35: the three steps one after the other; what the third leaves is read off the frame of POP. -/
theorem readByteIsAPopInASection : Obligations.ReadByteIsAPopInASection := by
  refine ⟨by decide, fun s rest hd ht => ?_⟩
  obtain ⟨p, hp⟩ := everyOperationCompletes .pop s
  have hframe := exec_pop_frame hp
  have hie : p.ie = s.ie := by rw [hframe]
  have hcode : p.faultCode = s.faultCode := by rw [hframe]
  have hmem : p.mem = s.mem := by rw [hframe]
  have hwr : p.wr = s.wr := by rw [hframe]
  have hbegin := step_csBegin_of_depth_zero hd ht
  have hpop := step_pop_inSection hp (csRsp 1 s.ie) (.word 0x04000#18 :: rest)
  have hend := step_csEnd_inSection p rest
  exact ⟨p, _, _, hp, (run_next hbegin).trans (run_next hpop), rfl, rfl, rfl,
    (run_next hbegin).trans ((run_next hpop).trans (run_next hend)), hie, rfl, hcode, rfl, rfl, hmem, hwr, rfl⟩

end Sys2Proof.Machine

/-! O23: the order of the queue over a run (40_fifo.md R95): O22 for each of its steps. -/

namespace Sys2Proof.Machine

theorem acceptedIn_succ {k : Nat} {s u : State} (h : step s = .next u) :
    acceptedIn (k + 1) s = s.acceptedNext ++ acceptedIn k u := by
  rw [acceptedIn, h]

theorem returnedIn_succ {k : Nat} {s u : State} (h : step s = .next u) :
    returnedIn (k + 1) s = s.returnedNext ++ returnedIn k u := by
  rw [returnedIn, h]

/-- No step after the trace's end empties the FIFO, so the trace alone says whether the next one does. -/
theorem emptiesFifo_nextEvent {k : Nat} {s : State} (h : ∀ ev, ev ∈ s.trace.take (k + 1) → ev.emptiesFifo = false) :
    s.nextEvent.emptiesFifo = false :=
  State.nextEvent_of_trace (P := fun ev => ev.emptiesFifo = false)
    (fun ev hev => h ev (List.take_subset_take_left _ (by omega) hev)) (fun _ => rfl) rfl rfl

theorem mem_take_trace_of_step {k : Nat} {s u : State} {ev : Event} (h : step s = .next u) (hev : ev ∈ u.trace.take k) :
    ev ∈ s.trace.take (k + 1) := by
  rw [step_trace h, ← List.drop_one, List.take_drop] at hev
  exact List.mem_of_mem_drop (Nat.add_comm 1 k ▸ hev)

/-- Settles O23: O22 over the steps of the run, by induction on its length. -/
theorem bytesAreReturnedInTheOrderAccepted : Obligations.BytesAreReturnedInTheOrderAccepted := by
  intro k s t hs htrace h
  induction k generalizing s with
  | zero =>
    cases h
    exact List.append_nil _
  | succ k ih =>
    obtain ⟨u, hstep, hrun⟩ := run_succ h
    have hfirst := (everyStepIsAQueueStep s u hs hstep).2 (emptiesFifo_nextEvent htrace)
    have hrest := ih u (everyStepKeepsSoundness s u hs hstep)
      (fun ev hev => htrace ev (mem_take_trace_of_step hstep hev)) hrun
    calc s.queue ++ acceptedIn (k + 1) s
        = (s.queue ++ s.acceptedNext) ++ acceptedIn k u := by rw [acceptedIn_succ hstep, List.append_assoc]
      _ = s.returnedNext ++ (u.queue ++ acceptedIn k u) := by rw [hfirst, List.append_assoc]
      _ = returnedIn (k + 1) s ++ t.queue := by rw [hrest, returnedIn_succ hstep, List.append_assoc]

end Sys2Proof.Machine

/-! O12, O15 to O20: the operations of the FIFO family, each with its word (40_fifo.md R86, R88 to R93). Their outcomes have names
(`State.pushed`, `State.popped`, `State.emptied`); a response is a number, the sum of its fields. -/

namespace Sys2Proof.Machine

theorem toNat_append_eq_mul_add {n k : Nat} (x : BitVec n) (y : BitVec k) : (x ++ y).toNat = x.toNat * 2 ^ k + y.toNat := by
  rw [BitVec.toNat_append, ← Nat.shiftLeft_add_eq_or_of_lt y.isLt, Nat.shiftLeft_eq]

theorem toNat_zext32 {n : Nat} (v : BitVec n) (h : n ≤ 32) : (zext32 v).toNat = v.toNat :=
  BitVec.toNat_setWidth_of_le h

theorem toNat_popFoundRsp (d : Byte) : (popFoundRsp d).toNat = 0x100 + d.toNat := by
  rw [popFoundRsp, toNat_zext32 _ (by decide), toNat_append_eq_mul_add]
  rfl

theorem toNat_statusRsp (s : State) : (statusRsp s).toNat =
    s.avail.toNat + (if s.avail.toNat = 128 then 0x100 else 0) + (if s.avail.toNat = 0 then 0x200 else 0) := by
  rw [statusRsp, toNat_zext32 _ (by decide), toNat_append_eq_mul_add, toNat_append_eq_mul_add]
  simp only [BitVec.toNat_ofBool, State.full, State.empty, Config.cap]
  by_cases hfull : s.avail.toNat = 0 <;> by_cases hempty : s.avail.toNat = 128 <;> simp [hfull, hempty]

/-- Settles O12: with the latch empty, RX_ARRIVE takes its first branch. -/
theorem rxArriveLatchesTheByte : Obligations.RxArriveLatchesTheByte :=
  ⟨fun d => decode_encode (.rxArrive d), fun _ _ hp => if_pos hp⟩

/-- Settles O15: the FIFO after the PUSH is `State.pushed`. -/
theorem pushStoresAtTheWriteIndex : Obligations.PushStoresAtTheWriteIndex := by
  refine ⟨fun d => decode_encode (.push d), fun d s ha => ?_⟩
  have havail : (s.pushed d).avail.toNat = s.avail.toNat - 1 := by
    change (s.avail - 1).toNat = _
    bv_omega
  refine ⟨(s.pushed d).silent, if_pos ha, fun a => s.memRead_memWrite s.wr.toNat a d, nextIdx_toNat s.wr, havail,
    ?_, fun hr => ?_, rfl⟩
  · rw [State.full, State.silent_avail, havail, decide_eq_decide]
    omega
  · rw [State.empty, State.silent_avail, havail, decide_eq_false_iff_not, Config.cap]
    omega

/-- Settles O16: on a full FIFO, PUSH takes its other branch. -/
theorem pushOnAFullFifoChangesNothing : Obligations.PushOnAFullFifoChangesNothing :=
  fun _ _ ha => if_neg (Nat.not_lt.mpr (Nat.le_of_eq ha))

/-- Settles O17: the FIFO after the POP is `State.popped`. -/
theorem popReturnsTheOldestByte : Obligations.PopReturnsTheOldestByte := by
  refine ⟨decode_encode .pop, fun s ha => ?_⟩
  have havail : s.popped.avail.toNat = s.avail.toNat + 1 := by
    change (s.avail + 1).toNat = _
    bv_omega
  refine ⟨_, popFoundRsp (s.memRead s.rd.toNat), if_pos ha, toNat_popFoundRsp _, nextIdx_toNat s.rd, havail,
    ?_, ?_, rfl⟩
  · change s.popped.empty = _
    rw [State.empty, havail, decide_eq_decide, Config.cap]
    omega
  · change s.popped.full = _
    rw [State.full, havail, decide_eq_false_iff_not]
    omega

/-- Settles O18: at `avail` 128 and above, POP takes its other branch. -/
theorem popOnAnEmptyFifoFindsNothing : Obligations.PopOnAnEmptyFifoFindsNothing :=
  fun _ ha => if_neg (Nat.not_lt.mpr ha)

/-- Settles O19: the response's three fields, as one number. -/
theorem statusReportsTheFillState : Obligations.StatusReportsTheFillState :=
  ⟨decode_encode .status, fun s => ⟨statusRsp s, rfl, toNat_statusRsp s⟩⟩

/-- Settles O20: the FIFO after INIT is `State.emptied`. -/
theorem initEmptiesTheFifoOnly : Obligations.InitEmptiesTheFifoOnly :=
  ⟨decode_encode .init, fun s => ⟨s.emptied.respond 0, rfl, rfl, State.queue_of_avail_cap rfl, rfl, rfl⟩⟩

end Sys2Proof.Machine

/-! O21: NOP and what sets it apart (40_fifo.md R94). -/

namespace Sys2Proof.Machine

/-- From every state the operation changes nothing and responds with `v` (40_fifo.md R94). -/
def OnlyResponds (i : Instr) (v : RspVal) : Prop :=
  ∀ s : State, exec i s = .next { s with rsp := some ⟨false, v⟩, pwrEvt := 0 }

theorem OnlyResponds.keeps {i : Instr} {v : RspVal} (h : OnlyResponds i v) {s t : State} (he : exec i s = .next t) :
    t.withOutputs none 0 = s.withOutputs none 0 := by
  rw [h s] at he
  cases he
  rfl

/-- Only a port-C operation responds (30_encoding.md R80). -/
theorem OnlyResponds.portC {i : Instr} {v : RspVal} (h : OnlyResponds i v) : wordPort (encode i) = 0b00#2 :=
  (exec_outputs (h State.reset)).1.mp rfl

/-- A command that reads the state responds with no constant. -/
theorem OnlyResponds.rsp_eq {i : Instr} {v : RspVal} (h : OnlyResponds i v) {f : State → RspVal}
    (hf : ∀ s, exec i s = .next (s.respond (f s))) (s t : State) : f s = f t := by
  have hv (s : State) : f s = v := by simpa [State.respond] using (hf s).symm.trans (h s)
  rw [hv s, hv t]

/-- Settles O21: an operation on port E or I drives no response; of every other command but NOP there is a state that it
changes, or there are two states that it reports apart. -/
theorem nopOnlyResponds : Obligations.NopOnlyResponds := by
  refine ⟨decode_encode .nop, fun _ => rfl, fun i v h => ?_⟩
  have h : OnlyResponds i v := h
  cases i with
  | nop => rfl
  | rxArrive _ | tickExpire | pwrSet _ | push _ | tickInc | pwrService => simpa [encode] using h.portC
  | pop => exact absurd (congrArg State.avail (h.keeps (s := { State.reset with avail := 0 }) rfl)) (by decide)
  | csBegin => exact absurd (congrArg State.depth (h.keeps (s := State.reset) rfl)) (by decide)
  | csEnd => exact absurd (congrArg State.depth (h.keeps (s := { State.reset with depth := 1 }) rfl)) (by decide)
  | intEnable => exact absurd (congrArg State.ie (h.keeps (s := State.reset) rfl)) (by decide)
  | intDisable => exact absurd (congrArg State.ie (h.keeps (s := { State.reset with ie := true }) rfl)) (by decide)
  | init => exact absurd (congrArg State.wr (h.keeps (s := { State.reset with wr := 1 }) rfl)) (by decide)
  | status => exact absurd (h.rsp_eq (fun _ => rfl) State.reset { State.reset with avail := 0 }) (by decide)
  | csStatus => exact absurd (h.rsp_eq (fun _ => rfl) State.reset { State.reset with ie := true }) (by decide)
  | tickRead => exact absurd (h.rsp_eq (fun _ => rfl) State.reset { State.reset with tick := 1 }) (by decide)
  | faultRead => exact absurd (h.rsp_eq (fun _ => rfl) State.reset { State.reset with faultCode := 1 }) (by decide)

end Sys2Proof.Machine

/-! O24: the bytes that no step depends on (40_fifo.md R99, 93_implementation_defined.md U1 to U3). One lemma for all three: a state
with other such bytes runs the same operation, which makes the same write, if any, to both storages. -/

namespace Sys2Proof.Machine

/-- `s` with other storage, another reset epoch and another latch byte: where the unspecified bytes stand. -/
def State.withFree (s : State) (m : Memory) (e : Nat) (d : Byte) : State := { s with mem := m, epoch := e, rxData := d }

theorem State.raiseFault_withFree (s : State) (m : Memory) (e : Nat) (d : Byte) (c : FaultCode) (w : Word) :
    (s.withFree m e d).raiseFault c w = (s.raiseFault c w).withFree m e d := by
  simp only [State.raiseFault_eq]
  rfl

theorem State.setIe_withFree (s : State) (m : Memory) (e : Nat) (d : Byte) (b : Bool) (w : Word) :
    (s.withFree m e d).setIe b w = (s.setIe b w).withFree m e d := by
  have hdepth : (s.withFree m e d).depth = s.depth := rfl
  simp only [State.setIe, State.raiseFault_withFree, hdepth]
  split <;> rfl

/-- The operations other than PUSH, POP and RX_ARRIVE neither read nor write the three places. -/
theorem exec_withFree_of_ne {i : Instr} {s t : State} (m : Memory) (e : Nat) (d : Byte) (h : exec i s = .next t)
    (hpush : ∀ b, i ≠ .push b) (hpop : i ≠ .pop) (hrx : ∀ b, i ≠ .rxArrive b) :
    exec i (s.withFree m e d) = .next (t.withFree m e d) := by
  cases i with
  | nop | status | csStatus | tickRead | init | faultRead | tickExpire | pwrSet _ | tickInc | pwrService => cases h; rfl
  | pop => exact absurd rfl hpop
  | push b => exact absurd rfl (hpush b)
  | rxArrive b => exact absurd rfl (hrx b)
  | intEnable => cases h; exact congrArg _ (State.setIe_withFree ..)
  | intDisable => cases h; exact congrArg _ (State.setIe_withFree ..)
  | csBegin =>
    have hdepth : (s.withFree m e d).depth = s.depth := rfl
    simp only [exec, execCsBegin, hdepth, State.raiseFault_withFree] at h ⊢
    by_cases hmax : s.depth.toNat = Config.depthMax
    · rw [if_pos hmax] at h ⊢; cases h; rfl
    · rw [if_neg hmax] at h ⊢; cases h; rfl
  | csEnd =>
    have hdepth : (s.withFree m e d).depth = s.depth := rfl
    simp only [exec, execCsEnd, hdepth, State.raiseFault_withFree] at h ⊢
    by_cases hout : s.depth = 0
    · rw [if_pos hout] at h ⊢; cases h; rfl
    · rw [if_neg hout] at h ⊢; cases h; rfl

theorem State.setIe_latch (s : State) (b : Bool) (w : Word) :
    (s.setIe b w).rxPend = s.rxPend ∧ (s.setIe b w).rxData = s.rxData := by
  rcases s.setIe_cases b w with ⟨_, he⟩ | ⟨_, he⟩ <;> simp [he]

/-- Only RX_ARRIVE touches the RX latch (10_state.md R44). -/
theorem exec_latch {i : Instr} {s t : State} (h : exec i s = .next t) (hrx : ∀ b, i ≠ .rxArrive b) :
    t.rxPend = s.rxPend ∧ t.rxData = s.rxData := by
  cases i with
  | nop | status | csStatus | tickRead | init | faultRead | tickExpire | pwrSet _ | tickInc | pwrService =>
    cases h
    exact ⟨rfl, rfl⟩
  | rxArrive b => exact absurd rfl (hrx b)
  | pop => rcases exec_pop_cases s with ⟨_, he⟩ | ⟨_, he⟩ <;> rw [he] at h <;> cases h <;> exact ⟨rfl, rfl⟩
  | push b => rcases exec_push_cases b s with ⟨_, he⟩ | ⟨_, he⟩ <;> rw [he] at h <;> cases h <;> exact ⟨rfl, rfl⟩
  | csBegin => rcases exec_csBegin_cases s with he | ⟨_, _, he⟩ <;> rw [he] at h <;> cases h <;> simp
  | csEnd => rcases exec_csEnd_cases s with he | ⟨_, he⟩ <;> rw [he] at h <;> cases h <;> simp
  | intEnable => cases h; exact State.setIe_latch ..
  | intDisable => cases h; exact State.setIe_latch ..

theorem exec_pop_withFree {s t : State} {m : Memory} {e : Nat} {d : Byte} (h : exec .pop s = .next t)
    (hread : s.avail.toNat < Config.cap → (s.withFree m e d).memRead s.rd.toNat = s.memRead s.rd.toNat) :
    exec .pop (s.withFree m e d) = .next (t.withFree m e d) := by
  rcases exec_pop_cases s with ⟨ha, he⟩ | ⟨ha, he⟩ <;> rw [he] at h <;> cases h
  · rw [← hread ha]
    exact if_pos ha
  · exact if_neg (Nat.not_lt.mpr ha)

/-- PUSH makes the same write to any storage (40_fifo.md R88). -/
theorem exec_push_withFree {b : Byte} {s t : State} (m : Memory) (e : Nat) (d : Byte) (h : exec (.push b) s = .next t) :
    (t.mem = s.mem ∧ exec (.push b) (s.withFree m e d) = .next (t.withFree m e d))
    ∨ (t.mem = Memory.write s.mem s.wr.toNat b
        ∧ exec (.push b) (s.withFree m e d) = .next (t.withFree (Memory.write m s.wr.toNat b) e d)) := by
  rcases exec_push_cases b s with ⟨ha, he⟩ | ⟨ha, he⟩ <;> rw [he] at h <;> cases h
  · exact .inr ⟨rfl, if_pos ha⟩
  · exact .inl ⟨rfl, if_neg (Nat.not_lt.mpr (Nat.le_of_eq ha))⟩

/-- RX_ARRIVE leaves the byte in the latch that it leaves there whatever the empty latch held. -/
theorem exec_rxArrive_withFree {b : Byte} {s t : State} {d : Byte} (m : Memory) (e : Nat)
    (h : exec (.rxArrive b) s = .next t) (hd : s.rxPend = true → d = s.rxData) :
    exec (.rxArrive b) (s.withFree m e d) = .next (t.withFree m e t.rxData) := by
  have hpend : (s.withFree m e d).rxPend = s.rxPend := rfl
  have hover : (s.withFree m e d).params.rxOverrun = s.params.rxOverrun := rfl
  simp only [exec, execRxArrive, hpend, hover] at h ⊢
  by_cases hp : s.rxPend = false
  · rw [if_pos hp] at h ⊢
    cases h
    rfl
  · rw [if_neg hp] at h ⊢
    obtain rfl := hd (Bool.eq_true_of_not_eq_false hp)
    cases ho : s.params.rxOverrun <;> rw [ho] at h <;> cases h <;> rfl

/-- Storage differs outside the queue only. -/
theorem State.queue_withFree_iff {s : State} {m : Memory} {e : Nat} {d : Byte} :
    (s.withFree m e d).queue = s.queue
      ↔ ∀ k, k < s.used → (s.withFree m e d).memRead (s.slot k) = s.memRead (s.slot k) := by
  have hqueue : (s.withFree m e d).queue = (List.range s.used).map (fun k => (s.withFree m e d).memRead (s.slot k)) := rfl
  rw [hqueue, State.queue]
  simp only [List.map_inj_left, List.mem_range]

/-- The byte POP reads is the front of the queue. -/
theorem State.memRead_rd_withFree {s : State} {m : Memory} {e : Nat} {d : Byte} (hq : (s.withFree m e d).queue = s.queue)
    (ha : s.avail.toNat < Config.cap) : (s.withFree m e d).memRead s.rd.toNat = s.memRead s.rd.toNat := by
  have hfront : s.slot 0 = s.rd.toNat := Nat.mod_eq_of_lt (idx_lt_cap s.rd)
  have hused : 0 < s.used := Nat.sub_pos_of_lt ha
  simpa [hfront] using State.queue_withFree_iff.mp hq 0 hused

/-- A PUSH puts its byte at the end of the queue over any storage. -/
theorem State.queue_pushed_withFree {s : State} {m : Memory} {e : Nat} {d : Byte} (hr : s.AvailInRange)
    (hi : s.IndexRelation) (ha : 0 < s.avail.toNat) (b : Byte) (hq : (s.withFree m e d).queue = s.queue) :
    ((s.withFree m e d).pushed b).queue = (s.pushed b).queue := by
  change ((s.pushed b).withFree (Memory.write m s.wr.toNat b) e d).queue = (s.pushed b).queue
  rw [State.queue_withFree_iff, State.used_pushed hr ha]
  intro k hk
  change ((s.withFree m e d).memWrite s.wr.toNat b).memRead (s.slot k) = (s.memWrite s.wr.toNat b).memRead (s.slot k)
  rw [State.memRead_memWrite, State.memRead_memWrite]
  split
  · rfl
  · next hne =>
    have hlast : k ≠ s.used := fun he => hne (he ▸ State.slot_used hi)
    exact State.queue_withFree_iff.mp hq k (by omega)

/-- An operation leads to the same queue from storage that differs outside the queue only (93_implementation_defined.md U2). -/
theorem exec_queue_withFree {i : Instr} {s t : State} {m m' : Memory} {e : Nat} {d d' : Byte} (hr : s.AvailInRange)
    (hi : s.IndexRelation) (h : exec i s = .next t) (h' : exec i (s.withFree m e d) = .next (t.withFree m' e d'))
    (hq : (s.withFree m e d).queue = s.queue) : (t.withFree m' e d').queue = t.queue := by
  cases i with
  | push b =>
    rcases exec_push_cases b s with ⟨ha, he⟩ | ⟨ha, he⟩
    · have he' : exec (.push b) (s.withFree m e d) = .next ((s.withFree m e d).pushed b).silent := if_pos ha
      rw [Host.Outcome.next.inj (h'.symm.trans he'), Host.Outcome.next.inj (h.symm.trans he)]
      exact State.queue_pushed_withFree hr hi ha b hq
    · have he' : exec (.push b) (s.withFree m e d) = .next (s.withFree m e d).silent :=
        if_neg (Nat.not_lt.mpr (Nat.le_of_eq ha))
      rw [Host.Outcome.next.inj (h'.symm.trans he'), Host.Outcome.next.inj (h.symm.trans he)]
      exact hq
  | pop =>
    obtain ⟨r, hrsp, hback⟩ := exec_pop_queue h
    obtain ⟨r', hrsp', hback'⟩ := exec_pop_queue h'
    obtain rfl : r = r' := Option.some.inj (hrsp.symm.trans hrsp')
    rw [hback, hback'] at hq
    exact List.append_cancel_left hq
  | init =>
    cases h
    exact (State.queue_of_avail_cap rfl).trans (State.queue_of_avail_cap rfl).symm
  | _ => rw [exec_queue h' (by simp) (by simp) (by simp), hq, exec_queue h (by simp) (by simp) (by simp)]

/-- After a step, `m'` and `d'` stand to the storage and the latch of `t` as `m` and `d` did to those of `s`: the same write, if
any, is made to both storages, a byte that is latched after the step is the same, and so is the queue. -/
structure State.FreeAfter (s t : State) (m : Memory) (e : Nat) (d : Byte) (m' : Memory) (d' : Byte) : Prop where
  epoch : t.epoch = s.epoch
  storage : (t.mem = s.mem ∧ m' = m) ∨ ∃ a b, t.mem = Memory.write s.mem a b ∧ m' = Memory.write m a b
  latched : t.rxPend = true → d' = t.rxData
  sameLatch : d = s.rxData → d' = t.rxData
  queue : s.AvailInRange → s.IndexRelation → (s.withFree m e d).queue = s.queue → (t.withFree m' e d').queue = t.queue

/-- An operation in a state with other bytes in the three places. -/
theorem exec_withFree {i : Instr} {s t : State} {m : Memory} {e : Nat} {d : Byte} (h : exec i s = .next t)
    (hread : s.avail.toNat < Config.cap → (s.withFree m e d).memRead s.rd.toNat = s.memRead s.rd.toNat)
    (hd : s.rxPend = true → d = s.rxData) :
    ∃ m' d', exec i (s.withFree m e d) = .next (t.withFree m' e d') ∧ s.FreeAfter t m e d m' d' := by
  have hepoch := (exec_outside h).2.2
  have hqueue {m' d'} (h' : exec i (s.withFree m e d) = .next (t.withFree m' e d')) := fun hr hi =>
    exec_queue_withFree hr hi h h'
  have kept {m'} (h' : exec i (s.withFree m e d) = .next (t.withFree m' e d)) (hrx : ∀ b, i ≠ .rxArrive b)
      (hm : (t.mem = s.mem ∧ m' = m) ∨ ∃ a b, t.mem = Memory.write s.mem a b ∧ m' = Memory.write m a b) :
      s.FreeAfter t m e d m' d := by
    obtain ⟨hpend, hdata⟩ := exec_latch h hrx
    exact ⟨hepoch, hm, fun hp => (hd (hpend ▸ hp)).trans hdata.symm, fun hs => hs.trans hdata.symm, hqueue h'⟩
  cases i with
  | rxArrive b =>
    have he := exec_rxArrive_withFree m e h hd
    exact ⟨m, t.rxData, he, hepoch, .inl ⟨exec_mem h (by simp), rfl⟩, fun _ => rfl, fun _ => rfl, hqueue he⟩
  | push b =>
    rcases exec_push_withFree m e d h with ⟨hm, he⟩ | ⟨hm, he⟩
    · exact ⟨m, d, he, kept he (by simp) (.inl ⟨hm, rfl⟩)⟩
    · exact ⟨_, d, he, kept he (by simp) (.inr ⟨_, b, hm, rfl⟩)⟩
  | pop =>
    have he := exec_pop_withFree h hread
    exact ⟨m, d, he, kept he (by simp) (.inl ⟨exec_mem h (by simp), rfl⟩)⟩
  | _ =>
    have he := exec_withFree_of_ne m e d h (by simp) (by simp) (by simp)
    exact ⟨m, d, he, kept he (by simp) (.inl ⟨exec_mem h (by simp), rfl⟩)⟩

/-- The elements that `State.FreeAfter` reads of the state before. -/
def State.freeParts (s : State) := (s.mem, s.wr, s.rd, s.avail, s.rxData, s.epoch)

theorem State.FreeAfter.congr {s r t : State} {m m' : Memory} {e : Nat} {d d' : Byte} (h : r.FreeAfter t m e d m' d')
    (hr : r.freeParts = s.freeParts) : s.FreeAfter t m e d m' d' := by
  simp only [State.freeParts, Prod.mk.injEq] at hr
  obtain ⟨hmem, hwr, hrd, havail, hdata, hepoch⟩ := hr
  cases r
  cases s
  subst hmem hwr hrd havail hdata hepoch
  exact ⟨h.epoch, h.storage, h.latched, h.sameLatch, h.queue⟩

/-- An update that leaves the three places, the FIFO and the latch. -/
theorem State.FreeAfter.of_same {s t : State} {m : Memory} {e : Nat} {d : Byte} (ht : t.freeParts = s.freeParts)
    (hpend : t.rxPend = s.rxPend) (hd : s.rxPend = true → d = s.rxData) : s.FreeAfter t m e d m d := by
  simp only [State.freeParts, Prod.mk.injEq] at ht
  obtain ⟨hmem, -, hrd, havail, hdata, hepoch⟩ := ht
  refine ⟨hepoch, .inl ⟨hmem, rfl⟩, fun hp => (hd (hpend ▸ hp)).trans hdata.symm, fun hs => hs.trans hdata.symm,
    fun _ _ hq => ?_⟩
  rw [State.queue_congr hmem hrd havail hepoch, ← hq]
  exact State.queue_congr rfl hrd havail rfl

theorem offerHeld_of_stalled {s : State} {b : Byte} {held : List Byte} (hh : s.rxHeld = b :: held) (hp : s.rxPend = true)
    (ho : s.params.rxOverrun = .stall) : offerHeld s = .next s.silent := by
  simp [offerHeld, hh, hp, ho]

theorem offerHeld_of_room {s : State} {b : Byte} {held : List Byte} (hh : s.rxHeld = b :: held)
    (hc : ¬(s.rxPend = true ∧ s.params.rxOverrun = .stall)) :
    offerHeld s = exec (.rxArrive b) { s with rxHeld := held } := by
  simp only [offerHeld, hh]
  exact if_neg (by simpa using hc)

/-- A step but a reset, from a state with other bytes in the three places, where the byte that a POP reads and a latched byte are
the same. -/
theorem step_withFree {s t : State} {m : Memory} {e : Nat} {d : Byte} (h : step s = .next t)
    (hreset : ∀ c p, s.nextEvent ≠ .reset c p)
    (hread : s.avail.toNat < Config.cap → (s.withFree m e d).memRead s.rd.toNat = s.memRead s.rd.toNat)
    (hd : s.rxPend = true → d = s.rxData) :
    ∃ m' d', step (s.withFree m e d) = .next (t.withFree m' e d') ∧ s.FreeAfter t m e d m' d' := by
  have hstep : step (s.withFree m e d) = perform s.nextEvent (s.takeEvent.withFree m e d) := rfl
  rw [hstep]
  rcases step_cases h with ⟨hn, rfl⟩ | ⟨w, i, hn, hport, hdec, he⟩ | ⟨w, c, hn, hport, hdec, rfl⟩ | ⟨src, hn, hm, he⟩ |
    ⟨b, held, hn, hh, hp, ho, rfl⟩ | ⟨b, held, hn, hh, hc, he⟩ | ⟨c, p, hn, rfl⟩ <;> rw [hn]
  · exact ⟨m, d, rfl, .of_same rfl rfl hd⟩
  · obtain ⟨m', d', he', hafter⟩ := exec_withFree he hread hd
    exact ⟨m', d', (arrive_of_decode hport hdec).trans he', hafter.congr rfl⟩
  · refine ⟨m, d, ?_, .of_same (by simp [State.freeParts]) (by simp) hd⟩
    rw [perform, arrive_of_illegal hport (legalWord_of_decode_illegal hdec), State.raiseFault_withFree]
  · have hinstr : deliveryInstr src (s.takeEvent.withFree m e d) = deliveryInstr src s := by
      cases src with
      | rx => exact congrArg Instr.push (hd (State.enabled_of_mayDeliver hm).2)
      | tick | pwr => rfl
    have hack : (s.takeEvent.withFree m e d).acknowledge src = (s.takeEvent.acknowledge src).withFree m e d := by
      cases src <;> rfl
    have hparts : (s.takeEvent.acknowledge src).freeParts = s.freeParts := by cases src <;> rfl
    obtain ⟨m', d', he', hafter⟩ := exec_withFree (m := m) (e := e) (d := d) he
      (by cases src <;> exact hread) (by cases src <;> simp [State.acknowledge] <;> exact hd)
    refine ⟨m', d', ?_, hafter.congr hparts⟩
    rw [perform, deliver_of_mayDeliver (by exact hm), hinstr, hack, he']
  · exact ⟨m, d, offerHeld_of_stalled (s := s.takeEvent.withFree m e d) hh hp ho, .of_same rfl rfl hd⟩
  · obtain ⟨m', d', he', hafter⟩ := exec_withFree (m := m) (e := e) (d := d) he hread hd
    exact ⟨m', d', (offerHeld_of_room (s := s.takeEvent.withFree m e d) hh hc).trans he', hafter.congr rfl⟩
  · exact absurd hn (hreset c p)

/-- The same in the epoch of the state. -/
theorem step_withFree_same_epoch {s t : State} {m : Memory} {d : Byte} (h : step s = .next t)
    (hreset : ∀ c p, s.nextEvent ≠ .reset c p)
    (hread : s.avail.toNat < Config.cap → (s.withFree m s.epoch d).memRead s.rd.toNat = s.memRead s.rd.toNat)
    (hd : s.rxPend = true → d = s.rxData) :
    ∃ m' d', step (s.withFree m s.epoch d) = .next (t.withFree m' t.epoch d') ∧ s.FreeAfter t m s.epoch d m' d' := by
  obtain ⟨m', d', he, hafter⟩ := step_withFree h hreset hread hd
  exact ⟨m', d', hafter.epoch ▸ he, hafter⟩

theorem step_reset_withFree {s : State} {c p : Option (BitVec 16)} (hn : s.nextEvent = .reset c p) (m : Memory) (d : Byte) :
    step (s.withFree m s.epoch d) = step s := by
  have hstep : step (s.withFree m s.epoch d) = perform s.nextEvent (s.takeEvent.withFree m s.epoch d) := rfl
  rw [hstep, step, hn]
  rfl

/-- What an entry reads as stays the same over the same write. -/
theorem State.FreeAfter.memRead_eq {s t : State} {m m' : Memory} {d d' : Byte} (h : s.FreeAfter t m s.epoch d m' d') {a : Nat}
    (ha : (s.withFree m s.epoch d).memRead a = s.memRead a) : (t.withFree m' t.epoch d').memRead a = t.memRead a := by
  have reads (r : State) (hmem : m' = r.mem) (hepoch : r.epoch = s.epoch) :
      (t.withFree m' t.epoch d').memRead a = r.memRead a :=
    State.memRead_congr (t := t.withFree m' t.epoch d') hmem (h.epoch.trans hepoch.symm) a
  rcases h.storage with ⟨hm, hm'⟩ | ⟨k, b, hm, hm'⟩
  · calc (t.withFree m' t.epoch d').memRead a
        = (s.withFree m s.epoch d).memRead a := reads _ hm' rfl
      _ = t.memRead a := ha.trans (State.memRead_congr hm h.epoch a).symm
  · calc (t.withFree m' t.epoch d').memRead a
        = ((s.withFree m s.epoch d).memWrite k b).memRead a := reads _ hm' rfl
      _ = (s.memWrite k b).memRead a := by rw [State.memRead_memWrite, State.memRead_memWrite, ha]
      _ = t.memRead a := (State.memRead_congr (s := s.memWrite k b) hm h.epoch a).symm

theorem State.FreeAfter.mem_eq {s t : State} {m' : Memory} {e : Nat} {d d' : Byte} (h : s.FreeAfter t s.mem e d m' d') :
    m' = t.mem := by
  rcases h.storage with ⟨hm, rfl⟩ | ⟨k, b, hm, rfl⟩ <;> exact hm.symm

/-- A byte written since the last reset reads the same in every epoch. -/
theorem State.memRead_withFree_of_written {s : State} {a : Nat} (e : Nat) (d : Byte) (h : (Memory.read s.mem a).isSome = true) :
    (s.withFree s.mem e d).memRead a = s.memRead a := by
  obtain ⟨b, hb⟩ := Option.isSome_iff_exists.mp h
  simp only [State.memRead, State.withFree, hb]

/-- U1: the reset epoch, which selects the bytes of unwritten storage. -/
theorem step_with_epoch {s t : State} (e : Nat) (hs : s.Inv) (hreset : ∀ c p, s.nextEvent ≠ .reset c p)
    (h : step s = .next t) : step { s with epoch := e } = .next { t with epoch := e } := by
  have hqueue : (s.withFree s.mem e s.rxData).queue = s.queue :=
    State.queue_withFree_iff.mpr fun k hk => State.memRead_withFree_of_written e _ (hs.queueWritten k hk)
  obtain ⟨m', d', he, hafter⟩ := step_withFree h hreset (State.memRead_rd_withFree hqueue) (fun _ => rfl)
  obtain rfl := hafter.mem_eq
  obtain rfl := hafter.sameLatch rfl
  exact he

/-- U2: storage that reads the same at every entry of the queue. -/
theorem step_with_mem {s t : State} {m : Memory} (hs : s.Inv)
    (hm : ∀ k, k < s.used → ({ s with mem := m } : State).memRead (s.slot k) = s.memRead (s.slot k)) (h : step s = .next t) :
    ∃ u : State, step { s with mem := m } = .next u ∧ u = { t with mem := u.mem } ∧ u.queue = t.queue
      ∧ ∀ a, ({ s with mem := m } : State).memRead a = s.memRead a → u.memRead a = t.memRead a := by
  by_cases hreset : ∃ c p, s.nextEvent = .reset c p
  · obtain ⟨c, p, hn⟩ := hreset
    exact ⟨t, (step_reset_withFree hn m s.rxData).trans h, rfl, rfl, fun _ _ => rfl⟩
  have hqueue : (s.withFree m s.epoch s.rxData).queue = s.queue := State.queue_withFree_iff.mpr hm
  obtain ⟨m', d', he, hafter⟩ := step_withFree_same_epoch h (fun c p hn => hreset ⟨c, p, hn⟩)
    (State.memRead_rd_withFree hqueue) (fun _ => rfl)
  obtain rfl := hafter.sameLatch rfl
  have hu := hafter.queue hs.availInRange hs.indexRelation hqueue
  rw [← hafter.epoch] at hu
  exact ⟨_, he, rfl, hu, fun _ ha => hafter.memRead_eq ha⟩

/-- U3: the latch byte while nothing is latched. -/
theorem step_with_rxData {s t : State} (d : Byte) (hp : s.rxPend = false) (h : step s = .next t) :
    ∃ u : State, step { s with rxData := d } = .next u ∧ (t.rxPend = true → u = t) ∧ { u with rxData := t.rxData } = t := by
  by_cases hreset : ∃ c p, s.nextEvent = .reset c p
  · obtain ⟨c, p, hn⟩ := hreset
    exact ⟨t, (step_reset_withFree hn s.mem d).trans h, fun _ => rfl, rfl⟩
  obtain ⟨m', d', he, hafter⟩ := step_withFree_same_epoch (m := s.mem) (d := d) h (fun c p hn => hreset ⟨c, p, hn⟩)
    (fun _ => rfl) (by simp [hp])
  obtain rfl := hafter.mem_eq
  refine ⟨_, he, fun hpend => ?_, rfl⟩
  obtain rfl := hafter.latched hpend
  rfl

/-- Settles O24: U1, U2 and U3 one by one. -/
theorem unspecifiedBytesAreUnobservable : Obligations.UnspecifiedBytesAreUnobservable :=
  ⟨fun _ _ e hs hreset h => step_with_epoch e hs hreset h, fun _ _ _ hs hm h => step_with_mem hs hm h,
    fun _ _ d hp h => step_with_rxData d hp h⟩

end Sys2Proof.Machine

/-! O26 to O33: the operations of the critical-section family, each with its word (41_critical_section.md R101 to R110). The two
states that CS_BEGIN and CS_END lead to have names; a fault leaves what `State.raiseFault_eq` says. -/

namespace Sys2Proof.Machine

/-- The state one section deeper (41_critical_section.md R101). -/
def State.sectionBegun (s : State) : State :=
  { s with savedIe := if s.depth = 0 then s.ie else s.savedIe, ie := false, depth := s.depth + 1 }

/-- The state with the innermost section closed (41_critical_section.md R103). -/
def State.sectionEnded (s : State) : State := { s with ie := s.ieAfterEnd, depth := s.depth - 1 }

theorem exec_csBegin_of_room {s : State} (h : s.depth.toNat < 255) :
    exec .csBegin s = .next (s.sectionBegun.respond (csRsp (s.depth + 1) s.ie)) :=
  if_neg (Nat.ne_of_lt h)

theorem exec_csBegin_at_limit {s : State} (h : s.depth.toNat = 255) :
    exec .csBegin s = .next (s.raiseFault .csOverflow (encode .csBegin)) :=
  if_pos h

theorem exec_csEnd_in_section {s : State} (h : s.depth ≠ 0) :
    exec .csEnd s = .next (s.sectionEnded.respond (csRsp (s.depth - 1) s.ieAfterEnd)) :=
  if_neg h

theorem exec_csEnd_outside {s : State} (h : s.depth = 0) :
    exec .csEnd s = .next (s.raiseFault .csUnderflow (encode .csEnd)) :=
  if_pos h

theorem State.depth_eq_zero_iff {s : State} : s.depth = 0 ↔ s.depth.toNat = 0 := BitVec.toNat_inj.symm

theorem State.toNat_depth_sectionBegun {s : State} (h : s.depth.toNat < 255) :
    s.sectionBegun.depth.toNat = s.depth.toNat + 1 := by
  change (s.depth + 1).toNat = _
  bv_omega

theorem State.savedIe_sectionBegun (s : State) :
    s.sectionBegun.savedIe = if s.depth.toNat = 0 then s.ie else s.savedIe :=
  if_congr State.depth_eq_zero_iff rfl rfl

theorem State.toNat_depth_sectionEnded {s : State} (h : 0 < s.depth.toNat) :
    s.sectionEnded.depth.toNat = s.depth.toNat - 1 := by
  change (s.depth - 1).toNat = _
  bv_omega

theorem State.ie_sectionEnded (s : State) : s.sectionEnded.ie = if s.depth.toNat = 1 then s.savedIe else false :=
  if_congr BitVec.toNat_inj.symm rfl rfl

/-- The response of CS_BEGIN and CS_END as a number: the depth from bit 8 up, the enable in bit 0. -/
theorem toNat_csRsp (d : BitVec 8) (b : Bool) : (csRsp d b).toNat = d.toNat * 0x100 + b.toNat := by
  rw [csRsp, toNat_zext32 _ (by decide), toNat_append_eq_mul_add, toNat_append_eq_mul_add, BitVec.toNat_ofBool]
  change (d.toNat * 2 ^ 7 + 0) * 2 ^ 1 + b.toNat = d.toNat * 0x100 + b.toNat
  omega

/-- Settles O26: the state after the CS_BEGIN is `State.sectionBegun`. -/
theorem csBeginMasksAndNests : Obligations.CsBeginMasksAndNests := by
  refine ⟨decode_encode .csBegin, fun s hd => ?_⟩
  have hdepth : (s.depth + 1).toNat = s.depth.toNat + 1 := State.toNat_depth_sectionBegun hd
  refine ⟨_, csRsp (s.depth + 1) s.ie, exec_csBegin_of_room hd, hdepth, ?_, ?_⟩
  · rw [toNat_csRsp, hdepth]
  · rw [← State.savedIe_sectionBegun]
    rfl

/-- Settles O27: at depth 255, CS_BEGIN takes its first branch. -/
theorem csBeginAtTheDepthLimitFaults : Obligations.CsBeginAtTheDepthLimitFaults := by
  intro s hd
  rw [exec_csBegin_at_limit hd, State.raiseFault_eq]
  rfl

/-- Settles O28: the state after the CS_END is `State.sectionEnded`. -/
theorem csEndUnnestsAndRestores : Obligations.CsEndUnnestsAndRestores := by
  refine ⟨decode_encode .csEnd, fun s hd => ?_⟩
  have hin : s.depth ≠ 0 := mt State.depth_eq_zero_iff.mp (Nat.ne_of_gt hd)
  have hdepth : (s.depth - 1).toNat = s.depth.toNat - 1 := State.toNat_depth_sectionEnded hd
  refine ⟨_, csRsp (s.depth - 1) s.ieAfterEnd, exec_csEnd_in_section hin, hdepth, s.ie_sectionEnded, ?_, rfl⟩
  rw [toNat_csRsp, hdepth]
  rfl

/-- Settles O29: at depth 0, CS_END takes its first branch. -/
theorem csEndOutsideASectionFaults : Obligations.CsEndOutsideASectionFaults := by
  intro s hd
  rw [exec_csEnd_outside (State.depth_eq_zero_iff.mpr hd), State.raiseFault_eq]
  rfl

/-- Settles O30: outside a section, both take the first branch of `State.setIe`. -/
theorem intEnableAndDisableSetTheMask : Obligations.IntEnableAndDisableSetTheMask := by
  refine ⟨decode_encode .intEnable, decode_encode .intDisable, fun s hd => ?_⟩
  have hset (b : Bool) (w : Word) : s.setIe b w = ({ s with ie := b } : State).respond 0 :=
    if_pos (State.depth_eq_zero_iff.mpr hd)
  exact ⟨congrArg Host.Outcome.next (hset ..), congrArg Host.Outcome.next (hset ..)⟩

/-- Settles O31: inside a section, both raise IE_IN_CS (`State.setIe_of_section`). -/
theorem intEnableAndDisableFaultInASection : Obligations.IntEnableAndDisableFaultInASection := by
  intro s hd
  have hin : s.depth ≠ 0 := mt State.depth_eq_zero_iff.mp hd
  have hset (b : Bool) (w : Word) := (State.setIe_of_section hin b w).trans (s.raiseFault_eq .ieInCs w)
  exact ⟨congrArg Host.Outcome.next (hset ..), congrArg Host.Outcome.next (hset ..)⟩

theorem getLsbD_append_of_lt {n m i : Nat} {x : BitVec n} {y : BitVec m} (h : i < m) :
    (x ++ y).getLsbD i = y.getLsbD i := by
  rw [BitVec.getLsbD_append, if_pos h]

theorem getLsbD_append_of_le {n m i : Nat} {x : BitVec n} {y : BitVec m} (h : m ≤ i) :
    (x ++ y).getLsbD i = x.getLsbD (i - m) := by
  rw [BitVec.getLsbD_append, if_neg (Nat.not_lt.mpr h)]

theorem extractLsb'_eq_zero_of_le {n a k : Nat} {x : BitVec n} (h : n ≤ a) : x.extractLsb' a k = 0 := by
  ext i hi
  simpa using BitVec.getLsbD_of_ge x (a + i) (by omega)

/-- Settles O32: the response is `csStatusRsp`, a concatenation of the reported fields. The widths stay sums until each field is
found, so that they match the lemmas about `++`. -/
theorem csStatusReportsEveryField : Obligations.CsStatusReportsEveryField := by
  refine ⟨decode_encode .csStatus, fun s => ⟨csStatusRsp s, rfl, ?_⟩⟩
  unfold csStatusRsp zext32 State.pwrPend
  simp (disch := decide) only [BitVec.getLsbD_setWidth, getLsbD_append_of_lt, getLsbD_append_of_le,
    BitVec.extractLsb'_setWidth_of_le, BitVec.extractLsb'_append_eq_of_le, BitVec.extractLsb'_append_eq_of_add_le,
    extractLsb'_eq_zero_of_le, -Nat.reduceAdd]
  simp

/-- Settles O33: the response is `faultReadRsp`, a concatenation of the two fields; the widths are left as for O32. -/
theorem faultReadReportsTheFirstFault : Obligations.FaultReadReportsTheFirstFault := by
  refine ⟨decode_encode .faultRead, fun s => ⟨faultReadRsp s, rfl, ?_⟩⟩
  unfold faultReadRsp zext32
  simp (disch := decide) only [BitVec.extractLsb'_setWidth_of_le, BitVec.extractLsb'_append_eq_of_le,
    BitVec.extractLsb'_append_eq_of_add_le, extractLsb'_eq_zero_of_le, -Nat.reduceAdd]
  simp

end Sys2Proof.Machine

/-! O36: which steps change the critical-section machine (41_critical_section.md R114): a command that answers without a fault,
and nothing else but a reset. -/

namespace Sys2Proof.Machine

/-- The state of the critical-section machine. -/
def State.csmParts (s : State) := (s.ie, s.depth, s.savedIe)

theorem State.csmParts_raiseFault (s : State) (c : FaultCode) (w : Word) : (s.raiseFault c w).csmParts = s.csmParts := by
  simp [State.csmParts]

/-- `i` is a command that may have changed the critical-section machine from `s` to `t`, and answered no fault: any part of it
if a section begins or ends, `ie` alone if the enable is set. -/
def MaskChange (i : Instr) (s t : State) : Prop :=
  (∃ v, t.rsp = some ⟨false, v⟩)
  ∧ (i = .csBegin ∨ i = .csEnd ∨ (i = .intEnable ∨ i = .intDisable) ∧ t.depth = s.depth ∧ t.savedIe = s.savedIe)

/-- INT_ENABLE and INT_DISABLE change `ie` or answer a fault (41_critical_section.md R106 to R108). -/
theorem State.csmParts_setIe (s : State) (b : Bool) (w : Word) :
    (s.setIe b w).csmParts = s.csmParts
    ∨ (∃ v, (s.setIe b w).rsp = some ⟨false, v⟩) ∧ (s.setIe b w).depth = s.depth
      ∧ (s.setIe b w).savedIe = s.savedIe := by
  rcases s.setIe_cases b w with ⟨_, he⟩ | ⟨_, he⟩ <;> rw [he]
  · exact .inr ⟨⟨0, rfl⟩, rfl, rfl⟩
  · exact .inl (s.csmParts_raiseFault ..)

theorem exec_csmParts {i : Instr} {s t : State} (h : exec i s = .next t) :
    t.csmParts = s.csmParts ∨ MaskChange i s t := by
  cases i with
  | nop | status | csStatus | tickRead | init | faultRead | tickExpire | pwrSet _ | tickInc | pwrService =>
    cases h
    exact .inl rfl
  | pop => rcases exec_pop_cases s with ⟨_, he⟩ | ⟨_, he⟩ <;> rw [he] at h <;> cases h <;> exact .inl rfl
  | push d => rcases exec_push_cases d s with ⟨_, he⟩ | ⟨_, he⟩ <;> rw [he] at h <;> cases h <;> exact .inl rfl
  | rxArrive d =>
    rcases exec_rxArrive_cases d s with he | he | he | ⟨_, he⟩ <;> rw [he] at h <;> cases h <;> exact .inl rfl
  | csBegin =>
    rcases exec_csBegin_cases s with he | ⟨saved, v, he⟩ <;> rw [he] at h <;> cases h
    · exact .inl (s.csmParts_raiseFault ..)
    · exact .inr ⟨⟨v, rfl⟩, .inl rfl⟩
  | csEnd =>
    rcases exec_csEnd_cases s with he | ⟨v, he⟩ <;> rw [he] at h <;> cases h
    · exact .inl (s.csmParts_raiseFault ..)
    · exact .inr ⟨⟨v, rfl⟩, .inr (.inl rfl)⟩
  | intEnable =>
    cases h
    exact (s.csmParts_setIe ..).imp_right fun ⟨hrsp, hkeep⟩ => ⟨hrsp, .inr (.inr ⟨.inl rfl, hkeep⟩)⟩
  | intDisable =>
    cases h
    exact (s.csmParts_setIe ..).imp_right fun ⟨hrsp, hkeep⟩ => ⟨hrsp, .inr (.inr ⟨.inr rfl, hkeep⟩)⟩

/-- An operation on port E or I drives no response, so it is no `MaskChange`. -/
theorem exec_csmParts_of_not_portC {i : Instr} {s t : State} (h : exec i s = .next t) (hi : wordPort (encode i) ≠ 0b00#2) :
    t.csmParts = s.csmParts := by
  rcases exec_csmParts h with hsame | ⟨⟨v, hrsp⟩, _⟩
  · exact hsame
  · exact absurd ((exec_outputs h).1.mp (by rw [hrsp]; rfl)) hi

/-- A step but a reset keeps the critical-section machine or performs a word that changes it. -/
theorem step_csmParts {s t : State} (h : step s = .next t) (hreset : ∀ c e, s.nextEvent ≠ .reset c e) :
    t.csmParts = s.csmParts ∨ ∃ i, s.nextEvent = .word (encode i) ∧ MaskChange i s t := by
  rcases step_cases h with ⟨_, rfl⟩ | ⟨w, i, hn, _, hd, he⟩ | ⟨w, c, _, _, _, rfl⟩ | ⟨src, _, _, he⟩ |
    ⟨d, held, _, _, _, _, rfl⟩ | ⟨d, held, _, _, _, he⟩ | ⟨c, e, hn, _⟩
  · exact .inl rfl
  · exact (exec_csmParts he).imp_right fun hchange => ⟨i, by rw [hn, encode_of_decode hd], hchange⟩
  · exact .inl (s.takeEvent.csmParts_raiseFault ..)
  · have hack : (s.takeEvent.acknowledge src).csmParts = s.csmParts := by cases src <;> rfl
    exact .inl ((exec_csmParts_of_not_portC he (by cases src <;> simp [deliveryInstr, encode])).trans hack)
  · exact .inl rfl
  · have hsame := exec_csmParts_of_not_portC he (by simp [encode])
    exact .inl hsame
  · exact absurd hn (hreset c e)

/-- Settles O36: what `step_csmParts` says, with the word of each command. -/
theorem onlyCsmCommandsChangeTheMask : Obligations.OnlyCsmCommandsChangeTheMask := by
  intro s t h hreset
  rcases step_csmParts h hreset with hsame | ⟨i, hn, ⟨v, hrsp⟩, hi⟩
  · simp only [State.csmParts, Prod.mk.injEq] at hsame
    obtain ⟨hie, hdepth, hsaved⟩ := hsame
    exact ⟨absurd hie, fun hne => hne.elim (absurd hdepth) (absurd hsaved), fun _ _ => ⟨hie, hdepth, hsaved⟩⟩
  · refine ⟨fun _ => ?_, fun hne => ?_, fun u hu => by simp [hrsp] at hu⟩
    · rcases hi with rfl | rfl | ⟨rfl | rfl, _⟩
      · exact .inl hn
      · exact .inr (.inl hn)
      · exact .inr (.inr (.inl hn))
      · exact .inr (.inr (.inr hn))
    · rcases hi with rfl | rfl | ⟨_, hdepth, hsaved⟩
      · exact .inl hn
      · exact .inr hn
      · exact hne.elim (absurd hdepth) (absurd hsaved)

end Sys2Proof.Machine

/-! O34: nested sections (41_critical_section.md R105): what holds `n` sections deep, kept by each command of a nest. -/

namespace Sys2Proof.Machine

/-- `u` lies `n` sections deep in a nest that was opened in `s`: inside it delivery is off and `saved_ie` holds the enable of
`s` (41_critical_section.md R101, R103). -/
structure NestedIn (s : State) (n : Nat) (u : State) : Prop where
  depth : u.depth.toNat = n
  ie : u.ie = if n = 0 then s.ie else false
  savedIe : n ≠ 0 → u.savedIe = s.ie
  faultCode : u.faultCode = s.faultCode
  queue : u.queue = s.queue

theorem NestedIn.outside {s : State} (hd : s.depth = 0) : NestedIn s 0 s :=
  ⟨State.depth_eq_zero_iff.mp hd, rfl, absurd rfl, rfl, rfl⟩

theorem NestedIn.mayDeliver {s u : State} {n : Nat} (h : NestedIn s n u) (hn : 0 < n) (src : Source) :
    u.mayDeliver src = false := by
  have hie : u.ie = false := h.ie.trans (if_neg (Nat.ne_of_gt hn))
  simp [State.mayDeliver, State.deliverable, hie]

theorem NestedIn.withTrace {s u : State} {n : Nat} (h : NestedIn s n u) (tr : List Event) :
    NestedIn s n { u with trace := tr } :=
  ⟨h.depth, h.ie, h.savedIe, h.faultCode, h.queue⟩

/-- The outermost CS_BEGIN saves the enable of `s`, an inner one keeps what is saved (41_critical_section.md R101). -/
theorem NestedIn.begun {s u : State} {n : Nat} (h : NestedIn s n u) (hlimit : n < 255) (v : RspVal) :
    NestedIn s (n + 1) (u.sectionBegun.respond v) where
  depth := (State.toNat_depth_sectionBegun (h.depth ▸ hlimit)).trans (congrArg (· + 1) h.depth)
  ie := rfl
  savedIe _ := by
    rw [State.respond_savedIe, State.savedIe_sectionBegun, h.depth]
    by_cases hn : n = 0
    · rw [if_pos hn, h.ie, if_pos hn]
    · rw [if_neg hn, h.savedIe hn]
  faultCode := h.faultCode
  queue := h.queue

/-- The outermost CS_END restores the saved enable, which is that of `s` (41_critical_section.md R103). -/
theorem NestedIn.ended {s u : State} {n : Nat} (h : NestedIn s (n + 1) u) (v : RspVal) :
    NestedIn s n (u.sectionEnded.respond v) where
  depth := by
    have hpos : 0 < u.depth.toNat := h.depth ▸ Nat.succ_pos n
    have hdepth := State.toNat_depth_sectionEnded hpos
    rw [h.depth] at hdepth
    exact hdepth
  ie := by
    rw [State.respond_ie, State.ie_sectionEnded, h.depth, h.savedIe n.succ_ne_zero]
    exact if_congr Nat.succ_inj rfl rfl
  savedIe _ := h.savedIe n.succ_ne_zero
  faultCode := h.faultCode
  queue := h.queue

theorem NestedIn.step_csBegin {s u : State} {n : Nat} {tr : List Event} (h : NestedIn s n u) (hn : n < 255)
    (ht : u.trace = .word (nestWord true) :: tr) : ∃ t, step u = .next t ∧ NestedIn s (n + 1) t :=
  ⟨_, (step_of_word ht (by decide) (decode_encode .csBegin)).trans (exec_csBegin_of_room (h.depth ▸ hn)),
    (h.withTrace tr).begun hn _⟩

theorem NestedIn.step_csEnd {s u : State} {n : Nat} {tr : List Event} (h : NestedIn s (n + 1) u)
    (ht : u.trace = .word (nestWord false) :: tr) : ∃ t, step u = .next t ∧ NestedIn s n t := by
  have hin : u.depth ≠ 0 := fun hd => n.succ_ne_zero (h.depth.symm.trans (State.depth_eq_zero_iff.mp hd))
  exact ⟨_, (step_of_word ht (by decide) (decode_encode .csEnd)).trans (exec_csEnd_in_section hin),
    (h.withTrace tr).ended _⟩

/-- One command of a nest, whichever it is: the machine's depth follows `nestDepth`. -/
theorem NestedIn.step_nestWord {s u : State} {n m : Nat} {b : Bool} {cmds : List Bool} {tr : List Event}
    (h : NestedIn s n u) (ht : u.trace = .word (nestWord b) :: tr) (hm : nestDepth n (b :: cmds) = some m) :
    ∃ k t, step u = .next t ∧ NestedIn s k t ∧ nestDepth k cmds = some m := by
  cases b with
  | true =>
    rw [nestDepth, Option.ite_none_right_eq_some] at hm
    obtain ⟨hroom, hm⟩ := hm
    obtain ⟨t, hstep, hnest⟩ := h.step_csBegin hroom ht
    exact ⟨n + 1, t, hstep, hnest, hm⟩
  | false =>
    rw [nestDepth, Option.ite_none_right_eq_some] at hm
    obtain ⟨hpos, hm⟩ := hm
    obtain ⟨k, rfl⟩ := Nat.exists_eq_add_one.mpr hpos
    obtain ⟨t, hstep, hnest⟩ := h.step_csEnd ht
    exact ⟨k, t, hstep, hnest, hm⟩

/-- A whole sequence of commands, from any depth of the nest. -/
theorem NestedIn.run {s u : State} {n m : Nat} {cmds : List Bool} {rest : List Event} (h : NestedIn s n u)
    (ht : u.trace = cmds.map (fun b => .word (nestWord b)) ++ rest) (hm : nestDepth n cmds = some m) :
    ∃ t, Sys2Proof.core.run cmds.length u = .next t ∧ NestedIn s m t ∧ t.trace = rest := by
  induction cmds generalizing n u with
  | nil =>
    cases hm
    exact ⟨u, rfl, h, ht⟩
  | cons b cmds ih =>
    obtain ⟨k, v, hstep, hv, hk⟩ := h.step_nestWord ht hm
    have htail : v.trace = cmds.map (fun b => .word (nestWord b)) ++ rest := by rw [step_trace hstep, ht]; rfl
    obtain ⟨t, hrun, hnest, hrest⟩ := ih hv htail hk
    exact ⟨t, (run_next hstep).trans hrun, hnest, hrest⟩

/-- Settles O34: `NestedIn.run` over the whole sequence, and over its first `k` commands with the others still to come. -/
theorem balancedNestRestoresTheEnable : Obligations.BalancedNestRestoresTheEnable := by
  intro cmds s rest hd ht hbalanced
  have hstart := NestedIn.outside hd
  constructor
  · obtain ⟨t, hrun, hnest, hrest⟩ := hstart.run ht hbalanced
    exact ⟨t, hrun, State.depth_eq_zero_iff.mpr hnest.depth, hnest.ie, hrest, hnest.faultCode, hnest.queue⟩
  · intro k n hk hn hpos
    have hsplit : s.trace = (cmds.take k).map (fun b => .word (nestWord b))
        ++ ((cmds.drop k).map (fun b => .word (nestWord b)) ++ rest) := by
      rw [ht, ← List.append_assoc, ← List.map_append, List.take_append_drop]
    obtain ⟨t, hrun, hnest, _⟩ := hstart.run hsplit hn
    rw [List.length_take_of_le hk] at hrun
    exact ⟨t, hrun, hnest.depth, hnest.ie.trans (if_neg (Nat.ne_of_gt hpos)), hnest.mayDeliver hpos⟩

end Sys2Proof.Machine

/-! O40: the tick counter over a run (42_timer.md R121): TICK_INC alone changes it (R118), and only a tick delivery performs one. -/

namespace Sys2Proof.Machine

theorem State.tick_setIe (s : State) (b : Bool) (w : Word) : (s.setIe b w).tick = s.tick := by
  rcases s.setIe_cases b w with ⟨_, he⟩ | ⟨_, he⟩ <;> simp [he]

/-- Every operation but TICK_INC leaves the counter (42_timer.md R116, R120). -/
theorem exec_tick {i : Instr} {s t : State} (h : exec i s = .next t) (hi : i ≠ .tickInc) : t.tick = s.tick := by
  cases i with
  | nop | status | csStatus | tickRead | init | faultRead | tickExpire | pwrSet _ | pwrService => cases h; rfl
  | tickInc => exact absurd rfl hi
  | pop => rcases exec_pop_cases s with ⟨_, he⟩ | ⟨_, he⟩ <;> rw [he] at h <;> cases h <;> rfl
  | push d => rcases exec_push_cases d s with ⟨_, he⟩ | ⟨_, he⟩ <;> rw [he] at h <;> cases h <;> rfl
  | rxArrive d => rcases exec_rxArrive_cases d s with he | he | he | ⟨_, he⟩ <;> rw [he] at h <;> cases h <;> rfl
  | csBegin => rcases exec_csBegin_cases s with he | ⟨_, _, he⟩ <;> rw [he] at h <;> cases h <;> simp
  | csEnd => rcases exec_csEnd_cases s with he | ⟨_, he⟩ <;> rw [he] at h <;> cases h <;> simp
  | intEnable => cases h; exact State.tick_setIe ..
  | intDisable => cases h; exact State.tick_setIe ..

/-- TICK_INC adds 1 to the counter, and the wrap is that of the word (42_timer.md R118, R119). -/
theorem exec_tickInc_toNat_tick {s t : State} (h : exec .tickInc s = .next t) :
    t.tick.toNat = (s.tick.toNat + 1) % 2 ^ 32 := by
  cases h
  exact BitVec.toNat_add s.tick 1

theorem State.tickDeliveredNext_of_tick {s : State} (hn : s.nextEvent = .deliver .tick) (hm : s.mayDeliver .tick = true) :
    s.tickDeliveredNext = 1 := by
  simp [State.tickDeliveredNext, hn, hm]

theorem State.tickDeliveredNext_of_ne {s : State} (hn : s.nextEvent ≠ .deliver .tick) : s.tickDeliveredNext = 0 := by
  unfold State.tickDeliveredNext
  split
  · next he => exact absurd he hn
  · rfl

theorem deliveryInstr_ne_tickInc {src : Source} (h : src ≠ .tick) (s : State) : deliveryInstr src s ≠ .tickInc := by
  cases src <;> simp [deliveryInstr] at h ⊢

/-- A step that is no tick delivery and no reset leaves the counter. -/
theorem step_tick_of_ne {s t : State} (h : step s = .next t) (hreset : ∀ c e, s.nextEvent ≠ .reset c e)
    (hne : s.nextEvent ≠ .deliver .tick) : t.tick = s.tick := by
  rcases step_cases h with ⟨_, rfl⟩ | ⟨w, i, _, hport, hd, he⟩ | ⟨w, c, _, _, _, rfl⟩ | ⟨src, hn, _, he⟩ |
    ⟨d, held, _, _, _, _, rfl⟩ | ⟨d, held, _, _, _, he⟩ | ⟨c, e, hn, _⟩
  · rfl
  · exact (exec_tick he (ne_of_decode_of_portI hd hport (wordPort_tagWord ..))).trans s.takeEvent_tick
  · exact State.raiseFault_tick ..
  · have hsrc : src ≠ .tick := fun hs => hne (hs ▸ hn)
    exact (exec_tick he (deliveryInstr_ne_tickInc hsrc s)).trans (State.acknowledge_tick ..)
  · rfl
  · exact (exec_tick he (by simp)).trans s.takeEvent_tick
  · exact absurd hn (hreset c e)

/-- A tick delivery that is a step was enabled and performed TICK_INC (60_exceptions.md R145). -/
theorem step_tick_of_delivery {s t : State} (h : step s = .next t) (hn : s.nextEvent = .deliver .tick) :
    s.mayDeliver .tick = true ∧ t.tick.toNat = (s.tick.toNat + 1) % 2 ^ 32 := by
  rw [step, hn, perform] at h
  rcases deliver_cases .tick s.takeEvent with ⟨hm, he⟩ | ⟨_, he⟩ <;> rw [he] at h
  · exact ⟨hm, exec_tickInc_toNat_tick (s := s.takeEvent.acknowledge .tick) h⟩
  · cases h

/-- A step but a reset advances the counter by its tick deliveries. -/
theorem step_toNat_tick {s t : State} (h : step s = .next t) (hreset : ∀ c e, s.nextEvent ≠ .reset c e) :
    t.tick.toNat = (s.tick.toNat + s.tickDeliveredNext) % 2 ^ 32 := by
  by_cases hn : s.nextEvent = .deliver .tick
  · obtain ⟨hm, htick⟩ := step_tick_of_delivery h hn
    rw [State.tickDeliveredNext_of_tick hn hm, htick]
  · rw [State.tickDeliveredNext_of_ne hn, step_tick_of_ne h hreset hn, Nat.add_zero, Nat.mod_eq_of_lt s.tick.isLt]

/-- No step after the trace's end is a reset, so the trace alone says whether the next one is. -/
theorem nextEvent_ne_reset {k : Nat} {s : State} (h : ∀ ev, ev ∈ s.trace.take (k + 1) → ev.isReset = false)
    (c e : Option (BitVec 16)) : s.nextEvent ≠ .reset c e := by
  have hnext : s.nextEvent.isReset = false :=
    State.nextEvent_of_trace (P := fun ev => ev.isReset = false)
      (fun ev hev => h ev (List.take_subset_take_left _ (by omega) hev)) (fun _ => rfl) rfl rfl
  intro hn
  rw [hn] at hnext
  cases hnext

theorem ticksDeliveredIn_succ {k : Nat} {s u : State} (h : step s = .next u) :
    ticksDeliveredIn (k + 1) s = s.tickDeliveredNext + ticksDeliveredIn k u := by
  rw [ticksDeliveredIn, h]

/-- Settles O40: `step_toNat_tick` over the steps of the run, by induction on its length. -/
theorem tickCountsItsDeliveries : Obligations.TickCountsItsDeliveries := by
  intro k s t htrace h
  induction k generalizing s with
  | zero =>
    cases h
    exact (Nat.mod_eq_of_lt t.tick.isLt).symm
  | succ k ih =>
    obtain ⟨u, hstep, hrun⟩ := run_succ h
    have hfirst := step_toNat_tick hstep (nextEvent_ne_reset htrace)
    have hrest := ih u (fun ev hev => htrace ev (mem_take_trace_of_step hstep hev)) hrun
    calc t.tick.toNat
        = ((s.tick.toNat + s.tickDeliveredNext) % 2 ^ 32 + ticksDeliveredIn k u) % 2 ^ 32 := by rw [hrest, hfirst]
      _ = (s.tick.toNat + ticksDeliveredIn (k + 1) s) % 2 ^ 32 := by
        rw [Nat.mod_add_mod, ticksDeliveredIn_succ hstep, Nat.add_assoc]

end Sys2Proof.Machine

/-! O37 to O39: the operations of the tick unit, each with its word (42_timer.md R116 to R120). -/

namespace Sys2Proof.Machine

theorem exec_tickExpire_eq (s : State) :
    exec .tickExpire s = .next { s with tickPend := true, rsp := none, pwrEvt := 0 } := rfl

/-- A second expiry merges with the pending one (42_timer.md R117). -/
theorem exec_tickExpire_of_pending {s : State} (h : s.tickPend = true) :
    exec .tickExpire s = .next { s with rsp := none, pwrEvt := 0 } := by
  rw [exec_tickExpire_eq, h]

/-- Settles O37: the word, the whole effect, and the merge. -/
theorem tickExpireSetsOnePendingBit : Obligations.TickExpireSetsOnePendingBit :=
  ⟨decode_encode .tickExpire, exec_tickExpire_eq, fun _ => exec_tickExpire_of_pending⟩

/-- Settles O38: the sum is `exec_tickInc_toNat_tick`; TICK_INC updates nothing else but the outputs. -/
theorem tickIncAddsOneModulo : Obligations.TickIncAddsOneModulo :=
  ⟨decode_encode .tickInc, fun _ => ⟨_, rfl, exec_tickInc_toNat_tick rfl, rfl⟩⟩

/-- Settles O39: TICK_READ responds with the counter, and the update drives the outputs only. -/
theorem tickReadReturnsTheCounter : Obligations.TickReadReturnsTheCounter :=
  ⟨decode_encode .tickRead, fun _ => rfl⟩

end Sys2Proof.Machine

/-! O41 to O44: the power-event unit (43_power_events.md R126 to R131). -/

namespace Sys2Proof.Machine

/-- The words 0x1300m are the words of PWR_SET (30_encoding.md R72). -/
theorem encode_pwrSet (m : PwrMask) : encode (.pwrSet m) = 0b01001100000000#14 ++ m := by
  revert m
  decide

theorem State.pending_pwr_iff (s : State) : s.pending .pwr = true ↔ s.pwrStat ≠ 0 := decide_eq_true_iff

/-- Settles O41: the new status is the bitwise `or` of the old one and the mask; nothing else but the outputs is updated. -/
theorem pwrSetRaisesItsConditions : Obligations.PwrSetRaisesItsConditions :=
  ⟨fun m => encode_pwrSet m ▸ decode_encode (.pwrSet m),
    fun _ _ => ⟨_, rfl, fun _ => BitVec.getLsbD_or, State.pending_pwr_iff _, rfl⟩⟩

/-- On PWR_SET's operation, legality asks for `imm8[7:4]` to be zero (30_encoding.md R75). -/
theorem legalWord_of_maskHigh_ne_zero {w : Word} (hp : w.extractLsb' 16 2 = 0b01#2) (ho : w.extractLsb' 12 4 = 0x3#4)
    (hhigh : w.extractLsb' 4 4 ≠ 0#4) : legalWord w = false := by
  have hmiddle : w.extractLsb' 4 8 ≠ 0#8 := fun h => hhigh (extractLsb'_eq_zero_of_slice (b := 0) h (by decide))
  simp [legalWord, hp, ho, hmiddle]

/-- Settles O42: the word is illegal, so the step is the one of O8; port E drives no response. -/
theorem pwrSetWithHighBitsIsIllegal : Obligations.PwrSetWithHighBitsIsIllegal := by
  intro s w rest ht hp ho hhigh
  have hport : wordPort w = 0b01#2 := hp
  have hstep := illegalWordOnlyRaisesIllegalOp s w rest ht (by simp [hport]) (legalWord_of_maskHigh_ne_zero hp ho hhigh)
  simpa [hport] using hstep

theorem exec_pwrService_eq (s : State) :
    exec .pwrService s = .next { s with pwrStat := 0, rsp := none, pwrEvt := s.pwrStat } := by
  rw [← writeOneToClear_self s.pwrStat]
  rfl

/-- Settles O43: the word, and the status written back to itself (`writeOneToClear_self`). -/
theorem pwrServiceEmitsAndClears : Obligations.PwrServiceEmitsAndClears :=
  ⟨decode_encode .pwrService, exec_pwrService_eq⟩

/-- Settles O44: bit by bit, `stat &&& ~~~v`; above the width both sides are 0. -/
theorem writeBackClearsExactlyItsOnes : Obligations.WriteBackClearsExactlyItsOnes := by
  intro stat v i
  rw [writeOneToClear, BitVec.getLsbD_and, BitVec.getLsbD_not]
  by_cases hi : i < 4
  · simp [hi]
  · simp [BitVec.getLsbD_of_ge stat i (by omega)]

end Sys2Proof.Machine

/-! O10, O11: the fault register (60_exceptions.md R138, R139): a fault is recorded only where none is. -/

namespace Sys2Proof.Machine

/-- Settles O10: `State.raiseFault_eq`, with the port as bits 17:16 of the word. -/
theorem raisingAFaultCapturesTheFirst : Obligations.RaisingAFaultCapturesTheFirst :=
  State.raiseFault_eq

/-- The fault register. -/
def State.faultRecord (s : State) := (s.faultCode, s.faultWord)

theorem State.faultRecord_raiseFault {s : State} (hs : s.faultCode ≠ 0) (c : FaultCode) (w : Word) :
    (s.raiseFault c w).faultRecord = s.faultRecord := by
  rw [State.faultRecord, State.raiseFault_faultCode, State.raiseFault_faultWord, if_neg hs, if_neg hs]
  rfl

theorem State.faultRecord_setIe {s : State} (hs : s.faultCode ≠ 0) (b : Bool) (w : Word) :
    (s.setIe b w).faultRecord = s.faultRecord := by
  rcases s.setIe_cases b w with ⟨_, he⟩ | ⟨_, he⟩ <;> rw [he]
  · rfl
  · exact State.faultRecord_raiseFault hs ..

theorem exec_faultRecord {i : Instr} {s t : State} (h : exec i s = .next t) (hs : s.faultCode ≠ 0) :
    t.faultRecord = s.faultRecord := by
  cases i with
  | nop | status | csStatus | tickRead | init | faultRead | tickExpire | pwrSet _ | tickInc | pwrService => cases h; rfl
  | pop => rcases exec_pop_cases s with ⟨_, he⟩ | ⟨_, he⟩ <;> rw [he] at h <;> cases h <;> rfl
  | push d => rcases exec_push_cases d s with ⟨_, he⟩ | ⟨_, he⟩ <;> rw [he] at h <;> cases h <;> rfl
  | rxArrive d => rcases exec_rxArrive_cases d s with he | he | he | ⟨_, he⟩ <;> rw [he] at h <;> cases h <;> rfl
  | csBegin =>
    rcases exec_csBegin_cases s with he | ⟨_, _, he⟩ <;> rw [he] at h <;> cases h
    · exact State.faultRecord_raiseFault hs ..
    · rfl
  | csEnd =>
    rcases exec_csEnd_cases s with he | ⟨_, he⟩ <;> rw [he] at h <;> cases h
    · exact State.faultRecord_raiseFault hs ..
    · rfl
  | intEnable => cases h; exact State.faultRecord_setIe hs ..
  | intDisable => cases h; exact State.faultRecord_setIe hs ..

theorem step_faultRecord {s t : State} (h : step s = .next t) (hreset : ∀ c e, s.nextEvent ≠ .reset c e)
    (hs : s.faultCode ≠ 0) : t.faultRecord = s.faultRecord := by
  rcases step_cases h with ⟨_, rfl⟩ | ⟨w, i, _, _, _, he⟩ | ⟨w, c, _, _, _, rfl⟩ | ⟨src, _, _, he⟩ |
    ⟨d, held, _, _, _, _, rfl⟩ | ⟨d, held, _, _, _, he⟩ | ⟨c, e, hn, _⟩
  · rfl
  · exact exec_faultRecord (s := s.takeEvent) he hs
  · exact State.faultRecord_raiseFault (s := s.takeEvent) hs ..
  · have hack : (s.takeEvent.acknowledge src).faultRecord = s.faultRecord := by cases src <;> rfl
    exact (exec_faultRecord he (by simpa using hs)).trans hack
  · rfl
  · exact exec_faultRecord (s := { s.takeEvent with rxHeld := held }) he hs
  · exact absurd hn (hreset c e)

/-- Settles O11: of all steps only a reset changes a register that holds a record. -/
theorem faultRegisterIsSticky : Obligations.FaultRegisterIsSticky :=
  fun _ _ h hreset hs => Prod.mk.inj (step_faultRecord h hreset hs)

end Sys2Proof.Machine

/-! O46, O47: a delivery (60_exceptions.md R145) as one update of the state. The three sources touch different elements, so
the updates of any two commute (R146). -/

namespace Sys2Proof.Machine

/-- The state after the delivery of `src` (60_exceptions.md R145; PUSH, 40_fifo.md R88, R89). -/
def State.delivered (s : State) (src : Source) : State :=
  match src with
  | .rx => { s with
      rxPend := false
      mem := if 0 < s.avail.toNat then Memory.write s.mem s.wr.toNat s.rxData else s.mem
      wr := if 0 < s.avail.toNat then nextIdx s.wr else s.wr
      avail := if 0 < s.avail.toNat then s.avail - 1 else s.avail
      rsp := none
      pwrEvt := 0 }
  | .tick => { s with tickPend := false, tick := s.tick + 1, rsp := none, pwrEvt := 0 }
  | .pwr => { s with pwrStat := 0, rsp := none, pwrEvt := s.pwrStat }

@[simp] theorem State.delivered_ie (s : State) (src : Source) : (s.delivered src).ie = s.ie := by cases src <;> rfl
@[simp] theorem State.delivered_params (s : State) (src : Source) : (s.delivered src).params = s.params := by
  cases src <;> rfl
@[simp] theorem State.delivered_trace (s : State) (src : Source) : (s.delivered src).trace = s.trace := by
  cases src <;> rfl

@[simp] theorem State.delivered_rxHeld (s : State) (src : Source) : (s.delivered src).rxHeld = s.rxHeld := by
  cases src <;> rfl

theorem State.delivered_withTrace (s : State) (src : Source) (tr : List Event) :
    ({ s with trace := tr } : State).delivered src = { s.delivered src with trace := tr } := by
  cases src <;> rfl

theorem exec_deliveryInstr (src : Source) (s : State) :
    exec (deliveryInstr src s) (s.acknowledge src) = .next (s.delivered src) := by
  cases src with
  | rx =>
    rcases exec_push_cases s.rxData (s.acknowledge .rx) with ⟨ha, he⟩ | ⟨ha, he⟩
    · have ha : 0 < s.avail.toNat := ha
      simp only [State.delivered, if_pos ha]
      exact he
    · have ha : ¬0 < s.avail.toNat := Nat.not_lt.mpr (Nat.le_of_eq ha)
      simp only [State.delivered, if_neg ha]
      exact he
  | tick => rfl
  | pwr => exact exec_pwrService_eq s

theorem deliver_eq_delivered {src : Source} {s : State} (hm : s.mayDeliver src = true) :
    deliver src s = .next (s.delivered src) :=
  (deliver_of_mayDeliver hm).trans (exec_deliveryInstr src s)

theorem step_delivered {s : State} {src : Source} {rest : List Event} (ht : s.trace = .deliver src :: rest)
    (hm : s.mayDeliver src = true) : step s = .next { s.delivered src with trace := rest } := by
  have hdeliver : deliver src { s with trace := rest } = _ := deliver_eq_delivered hm
  rw [step_takes ht, perform, hdeliver, State.delivered_withTrace]

theorem step_delivered_cons {s : State} {src : Source} (rest : List Event) (hm : s.mayDeliver src = true) :
    step { s with trace := .deliver src :: rest } = .next { s.delivered src with trace := rest } := by
  have hstep := step_delivered (s := { s with trace := .deliver src :: rest }) rfl hm
  rw [hstep, State.delivered_withTrace]

theorem State.memRead_delivered_rx {s : State} (ha : 0 < s.avail.toNat) (a : Nat) :
    (s.delivered .rx).memRead a = if a = s.wr.toNat then s.rxData else s.memRead a :=
  (State.memRead_congr (s := s.memWrite s.wr.toNat s.rxData) (t := s.delivered .rx) (if_pos ha) rfl a).trans
    (s.memRead_memWrite ..)

theorem State.delivered_rx_of_full {s : State} (ha : s.avail.toNat = 0) :
    s.delivered .rx = { s with rxPend := false, rsp := none, pwrEvt := 0 } := by
  simp [State.delivered, ha]

/-- The words 0x210nn are the words of PUSH (30_encoding.md R73). -/
theorem encode_push (d : Byte) : encode (.push d) = 0b1000010000#10 ++ d := rfl

/-- Settles O46: the step is the one of `step_delivered`, read off for each source. -/
theorem deliveryPerformsItsAction : Obligations.DeliveryPerformsItsAction := by
  refine ⟨fun s => ⟨encode_push s.rxData, rfl, rfl⟩, fun s rest => ⟨fun ht hm ha => ?_, fun ht hm ha => ?_, fun ht hm => ?_,
    fun ht hm => ?_⟩⟩
  · have hwr : (s.delivered .rx).wr = nextIdx s.wr := if_pos ha
    have havail : (s.delivered .rx).avail = s.avail - 1 := if_pos ha
    refine ⟨_, step_delivered ht hm, State.memRead_delivered_rx ha, ?_, ?_, rfl⟩
    · exact (congrArg BitVec.toNat hwr).trans (nextIdx_toNat s.wr)
    · exact (congrArg BitVec.toNat havail).trans (by bv_omega)
  · rw [step_delivered ht hm, State.delivered_rx_of_full ha]
  · exact step_delivered ht hm
  · exact step_delivered ht hm

/-- A delivery clears its own source and no other (60_exceptions.md R144, R145). -/
theorem State.pending_delivered (s : State) (src x : Source) :
    (s.delivered src).pending x = (decide (x ≠ src) && s.pending x) := by
  cases src <;> cases x <;> rfl

theorem State.deliverable_delivered {a b : Source} (hab : a ≠ b) (s : State) :
    (s.delivered a).deliverable b = s.deliverable b := by
  simp [State.deliverable, State.pending_delivered, hab.symm]

theorem State.mayDeliver_of_any {s : State} {src : Source} (ho : s.params.irqOrder = .any) (hd : s.deliverable src = true) :
    s.mayDeliver src = true := by
  simp [State.mayDeliver, ho, hd]

/-- Two deliveries in a row, where any order is admitted. -/
theorem run_two_deliveries {s : State} {a b : Source} (rest : List Event) (hab : a ≠ b) (ho : s.params.irqOrder = .any)
    (ha : s.deliverable a = true) (hb : s.deliverable b = true) :
    Sys2Proof.core.run 2 { s with trace := .deliver a :: .deliver b :: rest }
      = .next { (s.delivered a).delivered b with trace := rest } := by
  have hmb : (s.delivered a).mayDeliver b = true :=
    State.mayDeliver_of_any (by rw [State.delivered_params, ho]) (by rw [State.deliverable_delivered hab, hb])
  have hfirst := step_delivered_cons (.deliver b :: rest) (State.mayDeliver_of_any ho ha)
  have hsecond := step_delivered_cons rest hmb
  exact (run_next hfirst).trans (run_next hsecond)

theorem State.delivered_comm (a b : Source) (s : State) :
    ((s.delivered a).delivered b).withOutputs none 0 = ((s.delivered b).delivered a).withOutputs none 0 := by
  cases a <;> cases b <;> rfl

/-- Settles O47: each order is a run of two deliveries, and their updates commute but for the outputs. -/
theorem deliveriesCommute : Obligations.DeliveriesCommute := by
  intro s a b rest hab ho ha hb
  refine ⟨_, _, run_two_deliveries rest hab ho ha hb, run_two_deliveries rest hab.symm ho hb ha, ?_⟩
  exact congrArg (fun u : State => { u with trace := rest }) (State.delivered_comm a b s)

end Sys2Proof.Machine

/-! O48: POP and an RX delivery as steps of the queue (10_state.md R29), with the fill count: the two orders (60_exceptions.md R149)
differ where the queue is empty or full. -/

namespace Sys2Proof.Machine

theorem State.length_queue (s : State) : s.queue.length = s.used := by
  rw [State.queue, List.length_map, List.length_range]

theorem exec_pop_of_queue_nil {s t : State} (h : exec .pop s = .next t) (hq : s.queue = []) :
    t.rsp = some ⟨false, popEmptyRsp⟩ ∧ t.queue = [] ∧ t.avail = s.avail := by
  rcases exec_pop_cases s with ⟨ha, he⟩ | ⟨_, he⟩ <;> rw [he] at h <;> cases h
  · exact absurd hq (State.queue_of_popped ha ▸ List.cons_ne_nil _ _)
  · exact ⟨rfl, hq, rfl⟩

theorem exec_pop_of_queue_cons {s t : State} {d : Byte} {q : List Byte} (h : exec .pop s = .next t)
    (hq : s.queue = d :: q) : t.rsp = some ⟨false, popFoundRsp d⟩ ∧ t.queue = q ∧ t.avail = s.avail + 1 := by
  rcases exec_pop_cases s with ⟨ha, he⟩ | ⟨ha, he⟩ <;> rw [he] at h <;> cases h
  · obtain ⟨hd, htail⟩ := List.cons.inj ((State.queue_of_popped ha).symm.trans hq)
    exact ⟨by rw [← hd]; rfl, htail, rfl⟩
  · have hlength := s.length_queue
    rw [State.used, Nat.sub_eq_zero_of_le ha, hq] at hlength
    exact absurd hlength (Nat.succ_ne_zero _)

/-- A delivery of RX does to the queue what its PUSH does. -/
theorem State.queue_delivered_rx {s : State} (hs : s.Inv) :
    (s.delivered .rx).queue = s.queue ++ if 0 < s.avail.toNat then [s.rxData] else [] := by
  have hpush := exec_push_queue (hs.acknowledge .rx) (exec_deliveryInstr .rx s)
  exact hpush

theorem State.avail_delivered_rx (s : State) :
    (s.delivered .rx).avail = if 0 < s.avail.toNat then s.avail - 1 else s.avail := rfl

theorem State.exists_queue_cons {s : State} (ha : s.avail.toNat < 128) : ∃ d q, s.queue = d :: q :=
  ⟨_, _, State.queue_of_popped ha⟩

/-- What POP leaves for the delivery: all that it reads but the FIFO. -/
theorem exec_pop_mayDeliver {s p : State} (h : exec .pop s = .next p) (src : Source) : p.mayDeliver src = s.mayDeliver src := by
  rw [exec_pop_frame h]
  cases src <;> rfl

theorem exec_pop_rxData {s p : State} (h : exec .pop s = .next p) : p.rxData = s.rxData := by
  rw [exec_pop_frame h]

/-- The two orders of POP and an RX delivery from `s`: POP leads to `p` and the delivery after it to `p.delivered .rx`; the
delivery leads to `s.delivered .rx` and the POP after it to `u`. -/
structure EitherOrder (s p u : State) : Prop where
  sound : s.Inv
  popFirst : exec .pop s = .next p
  popSecond : exec .pop (s.delivered .rx) = .next u

theorem EitherOrder.queue_after_pop {s p u : State} (h : EitherOrder s p u) :
    (p.delivered .rx).queue = p.queue ++ if 0 < p.avail.toNat then [s.rxData] else [] := by
  rw [State.queue_delivered_rx (exec_inv h.sound h.popFirst), exec_pop_rxData h.popFirst]

theorem EitherOrder.between {s p u : State} (h : EitherOrder s p u) (hpos : 0 < s.avail.toNat) (hlt : s.avail.toNat < 128) :
    p.rsp = u.rsp ∧ (p.delivered .rx).queue = u.queue ∧ (p.delivered .rx).avail = s.avail ∧ u.avail = s.avail := by
  obtain ⟨d, q, hq⟩ := State.exists_queue_cons hlt
  have hpush : (s.delivered .rx).queue = d :: (q ++ [s.rxData]) := by
    rw [State.queue_delivered_rx h.sound, hq, if_pos hpos, List.cons_append]
  obtain ⟨hprsp, hpqueue, hpavail⟩ := exec_pop_of_queue_cons h.popFirst hq
  obtain ⟨hursp, huqueue, huavail⟩ := exec_pop_of_queue_cons h.popSecond hpush
  have hroom : 0 < p.avail.toNat := by rw [hpavail]; bv_omega
  refine ⟨hprsp.trans hursp.symm, ?_, ?_, ?_⟩
  · rw [h.queue_after_pop, if_pos hroom, hpqueue, huqueue]
  · rw [State.avail_delivered_rx, if_pos hroom, hpavail]
    exact BitVec.add_sub_cancel s.avail 1
  · rw [huavail, State.avail_delivered_rx, if_pos hpos]
    exact BitVec.sub_add_cancel s.avail 1

theorem EitherOrder.full {s p u : State} (h : EitherOrder s p u) (hfull : s.avail.toNat = 0) :
    p.rsp = u.rsp ∧ (p.delivered .rx).avail.toNat = 0 ∧ u.avail.toNat = 1
      ∧ (p.delivered .rx).queue = u.queue ++ [s.rxData] := by
  obtain ⟨d, q, hq⟩ := State.exists_queue_cons (s := s) (by omega)
  have hdrop : ¬0 < s.avail.toNat := by omega
  have hpush : (s.delivered .rx).queue = d :: q := by
    rw [State.queue_delivered_rx h.sound, hq, if_neg hdrop, List.append_nil]
  obtain ⟨hprsp, hpqueue, hpavail⟩ := exec_pop_of_queue_cons h.popFirst hq
  obtain ⟨hursp, huqueue, huavail⟩ := exec_pop_of_queue_cons h.popSecond hpush
  have hone : (s.avail + 1).toNat = 1 := by bv_omega
  have hroom : 0 < p.avail.toNat := by rw [hpavail, hone]; decide
  refine ⟨hprsp.trans hursp.symm, ?_, ?_, ?_⟩
  · rw [State.avail_delivered_rx, if_pos hroom, hpavail]
    exact (congrArg BitVec.toNat (BitVec.add_sub_cancel s.avail 1)).trans hfull
  · rw [huavail, State.avail_delivered_rx, if_neg hdrop, hone]
  · rw [h.queue_after_pop, if_pos hroom, hpqueue, huqueue]

theorem popFoundRsp_eq_ofNat (d : Byte) : popFoundRsp d = BitVec.ofNat 32 (0x100 + d.toNat) := by
  rw [← toNat_popFoundRsp, BitVec.ofNat_toNat, BitVec.setWidth_eq]

theorem EitherOrder.empty {s p u : State} (h : EitherOrder s p u) (hempty : s.avail.toNat = 128) :
    p.rsp = some ⟨false, 0⟩ ∧ u.rsp = some ⟨false, BitVec.ofNat 32 (0x100 + s.rxData.toNat)⟩
      ∧ (p.delivered .rx).avail.toNat = 127 ∧ (p.delivered .rx).queue = [s.rxData] ∧ u.avail.toNat = 128 ∧ u.queue = [] := by
  have hq : s.queue = [] := State.queue_of_avail_cap hempty
  have hpos : 0 < s.avail.toNat := by omega
  have hpush : (s.delivered .rx).queue = [s.rxData] := by
    rw [State.queue_delivered_rx h.sound, hq, if_pos hpos, List.nil_append]
  obtain ⟨hprsp, hpqueue, hpavail⟩ := exec_pop_of_queue_nil h.popFirst hq
  obtain ⟨hursp, huqueue, huavail⟩ := exec_pop_of_queue_cons h.popSecond hpush
  have hroom : 0 < p.avail.toNat := by rwa [hpavail]
  refine ⟨hprsp, popFoundRsp_eq_ofNat _ ▸ hursp, ?_, ?_, ?_, huqueue⟩
  · rw [State.avail_delivered_rx, if_pos hroom, hpavail]
    bv_omega
  · rw [h.queue_after_pop, if_pos hroom, hpqueue, List.nil_append]
  · rw [huavail, State.avail_delivered_rx, if_pos hpos]
    exact (congrArg BitVec.toNat (BitVec.sub_add_cancel s.avail 1)).trans hempty

/-- POP does the same whatever is to come. -/
theorem step_pop_cons {s p : State} (rest : List Event) (h : exec .pop s = .next p) :
    step { s with trace := .word 0x01000#18 :: rest } = .next { p with trace := rest } := by
  have hstep : step { s with trace := .word 0x01000#18 :: rest } = exec .pop { s with trace := rest } :=
    step_of_word rfl (by decide) (decode_encode .pop)
  rw [hstep]
  rcases exec_pop_cases s with ⟨ha, he⟩ | ⟨ha, he⟩ <;> rw [he] at h <;> cases h
  · exact if_pos ha
  · exact if_neg (Nat.not_lt.mpr ha)

/-- Settles O48: the two runs, and the three fill states one by one. -/
theorem popAndRxDeliveryInEitherOrder : Obligations.PopAndRxDeliveryInEitherOrder := by
  intro s rest hm hs
  obtain ⟨p, hp⟩ := everyOperationCompletes .pop s
  obtain ⟨u, hu⟩ := everyOperationCompletes .pop (s.delivered .rx)
  have hpop := step_pop_cons (.deliver .rx :: rest) hp
  have hthenPush := step_delivered_cons rest ((exec_pop_mayDeliver hp .rx).trans hm)
  have hpush := step_delivered_cons (.word 0x01000#18 :: rest) hm
  have hthenPop := step_pop_cons rest hu
  have h : EitherOrder s p u := ⟨hs, hp, hu⟩
  exact ⟨_, _, _, run_next hpop, (run_next hpop).trans (run_next hthenPush), (run_next hpush).trans (run_next hthenPop),
    h.between, h.full, h.empty⟩

end Sys2Proof.Machine

/-! O49: what keeps a source pending (60_exceptions.md R142, R144). `raised` speaks of one pending bit of a source; PWR has one for
each condition, so a kept bit is both a source that stays pending and a condition that stays raised. -/

namespace Sys2Proof.Machine

/-- The pending bit of `src`; for PWR that of condition `n` (43_power_events.md R125). -/
def State.raised (s : State) (src : Source) (n : Nat) : Bool :=
  match src with
  | .rx => s.rxPend
  | .tick => s.tickPend
  | .pwr => s.pwrStat.getLsbD n

theorem State.pending_iff_raised (s : State) (src : Source) : s.pending src = true ↔ ∃ n, s.raised src n = true := by
  cases src with
  | rx | tick => exact (exists_const Nat).symm
  | pwr =>
    rw [State.pending_pwr_iff, ← not_iff_not, not_not, not_exists]
    constructor
    · intro hzero n
      simp [State.raised, hzero]
    · intro hnone
      apply BitVec.eq_of_getLsbD_eq
      intro n _
      simpa [State.raised] using hnone n

theorem State.raised_raiseFault (s : State) (c : FaultCode) (w : Word) (src : Source) (n : Nat) :
    (s.raiseFault c w).raised src n = s.raised src n := by
  cases src <;> simp [State.raised]

theorem State.raised_setIe (s : State) (b : Bool) (w : Word) (src : Source) (n : Nat) :
    (s.setIe b w).raised src n = s.raised src n := by
  rcases s.setIe_cases b w with ⟨_, he⟩ | ⟨_, he⟩ <;> rw [he]
  · rfl
  · exact s.raised_raiseFault ..

/-- Only the delivery of `src` clears its bit itself (60_exceptions.md R145). -/
theorem State.raised_acknowledge {x src : Source} (hne : x ≠ src) (s : State) (n : Nat) :
    (s.acknowledge x).raised src n = s.raised src n := by
  cases x <;> cases src <;> simp at hne <;> rfl

/-- Every operation keeps a raised bit, but PWR_SERVICE those of the conditions. -/
theorem exec_raised {i : Instr} {s t : State} {src : Source} {n : Nat} (h : exec i s = .next t)
    (hservice : i = .pwrService → src ≠ .pwr) (hr : s.raised src n = true) : t.raised src n = true := by
  cases i with
  | nop | status | csStatus | tickRead | init | faultRead | tickInc => cases h; exact hr
  | pop => rcases exec_pop_cases s with ⟨_, he⟩ | ⟨_, he⟩ <;> rw [he] at h <;> cases h <;> exact hr
  | push d => rcases exec_push_cases d s with ⟨_, he⟩ | ⟨_, he⟩ <;> rw [he] at h <;> cases h <;> exact hr
  | rxArrive d =>
    cases src with
    | rx => exact (exec_rxArrive_latch h).1
    | tick | pwr => rcases exec_rxArrive_cases d s with he | he | he | ⟨_, he⟩ <;> rw [he] at h <;> cases h <;> exact hr
  | tickExpire =>
    cases h
    cases src with
    | tick => rfl
    | rx | pwr => exact hr
  | pwrSet m =>
    cases h
    cases src with
    | pwr => exact BitVec.getLsbD_or.trans (Bool.or_eq_true_iff.mpr (.inl hr))
    | rx | tick => exact hr
  | pwrService =>
    cases h
    cases src with
    | pwr => exact absurd rfl (hservice rfl)
    | rx | tick => exact hr
  | csBegin =>
    rcases exec_csBegin_cases s with he | ⟨_, _, he⟩ <;> rw [he] at h <;> cases h
    · exact (s.raised_raiseFault ..).trans hr
    · exact hr
  | csEnd =>
    rcases exec_csEnd_cases s with he | ⟨_, he⟩ <;> rw [he] at h <;> cases h
    · exact (s.raised_raiseFault ..).trans hr
    · exact hr
  | intEnable => cases h; exact (s.raised_setIe ..).trans hr
  | intDisable => cases h; exact (s.raised_setIe ..).trans hr

theorem deliveryInstr_ne_pwrService {src : Source} (h : src ≠ .pwr) (s : State) : deliveryInstr src s ≠ .pwrService := by
  cases src <;> simp [deliveryInstr] at h ⊢

/-- A step that is no delivery of `src` and no reset keeps the raised bits of `src`. -/
theorem step_raised {s t : State} {src : Source} {n : Nat} (h : step s = .next t)
    (hreset : ∀ c e, s.nextEvent ≠ .reset c e) (hne : s.nextEvent ≠ .deliver src) (hr : s.raised src n = true) :
    t.raised src n = true := by
  have htake : s.takeEvent.raised src n = true := hr
  rcases step_cases h with ⟨_, rfl⟩ | ⟨w, i, _, hport, hd, he⟩ | ⟨w, c, _, _, _, rfl⟩ | ⟨x, hn, _, he⟩ |
    ⟨d, held, _, _, _, _, rfl⟩ | ⟨d, held, _, _, _, he⟩ | ⟨c, e, hn, _⟩
  · exact hr
  · exact exec_raised he (fun hi => absurd hi (ne_of_decode_of_portI hd hport (wordPort_tagWord ..))) htake
  · exact (s.takeEvent.raised_raiseFault ..).trans htake
  · have hx : x ≠ src := fun hx => hne (hx ▸ hn)
    exact exec_raised he (fun hi hsrc => deliveryInstr_ne_pwrService (hsrc ▸ hx) s hi)
      ((State.raised_acknowledge hx ..).trans htake)
  · exact hr
  · exact exec_raised he (by simp) htake
  · exact absurd hn (hreset c e)

theorem step_pending {s t : State} {src : Source} (h : step s = .next t) (hreset : ∀ c e, s.nextEvent ≠ .reset c e)
    (hne : s.nextEvent ≠ .deliver src) (hp : s.pending src = true) : t.pending src = true := by
  obtain ⟨n, hr⟩ := (s.pending_iff_raised src).mp hp
  exact (t.pending_iff_raised src).mpr ⟨n, step_raised h hreset hne hr⟩

/-- Settles O49: where the step is no delivery of the source, its bits stay raised. -/
theorem onlyItsDeliveryClearsASource : Obligations.OnlyItsDeliveryClearsASource := by
  intro s t h hreset
  refine ⟨fun src hp hcleared => ?_, fun n hr hcleared => ?_⟩ <;> by_contra hne
  · exact Bool.false_ne_true (hcleared.symm.trans (step_pending h hreset hne hp))
  · exact Bool.false_ne_true (hcleared.symm.trans (step_raised (src := .pwr) h hreset hne hr))

end Sys2Proof.Machine

/-! O51: weak fairness (60_exceptions.md R148). After the trace's end every step with delivery on does a part of the work that is
left, so no run goes on for ever with a delivery enabled, and every such run ends. In an execution from outside, a source that is
never delivered would stay enabled for ever. -/

namespace Sys2Proof.Machine

/-- The steps that are left after the trace's end: one for each pending source, and for each held byte one in which it arrives
and one in which it is delivered. -/
def State.workLeft (s : State) : Nat :=
  (s.pending .rx).toNat + (s.pending .tick).toNat + (s.pending .pwr).toNat + 2 * s.rxHeld.length

theorem State.workLeft_delivered {s : State} {src : Source} (hp : s.pending src = true) :
    (s.delivered src).workLeft < s.workLeft := by
  simp only [State.workLeft, State.pending_delivered, State.delivered_rxHeld]
  cases src <;> simp [hp]

/-- A held byte that arrives in the empty latch. -/
theorem State.workLeft_arrived {s : State} {d : Byte} {held : List Byte} (hh : s.rxHeld = d :: held)
    (hp : s.rxPend = false) :
    ({ s with rxHeld := held, rxData := d, rxPend := true } : State).silent.workLeft < s.workLeft := by
  have hbefore : s.pending .rx = false := hp
  change true.toNat + (s.pending .tick).toNat + (s.pending .pwr).toNat + 2 * held.length < s.workLeft
  rw [State.workLeft, hbefore, hh, List.length_cons, Bool.toNat_true, Bool.toNat_false]
  omega

theorem State.not_runEnded_of_deliverable {s : State} {src : Source} (hd : s.deliverable src = true) :
    s.runEnded = false := by
  cases src <;> simp [State.runEnded, hd]

theorem State.runEnded_of_idle {s : State} (ht : s.trace = []) (hd : ∀ src, s.deliverable src = false)
    (hh : s.rxHeld = []) : s.runEnded = true := by
  simp [State.runEnded, ht, hd, hh]

/-- After the trace's end, with delivery on, the run has ended or its next step does a part of the work. -/
theorem step_after_trace {s : State} (ht : s.trace = []) (hie : s.ie = true) :
    s.runEnded = true ∨ ∃ t, step s = .next t ∧ t.trace = [] ∧ t.ie = true ∧ t.workLeft < s.workLeft := by
  rcases State.nextEvent_nil ht with ⟨src, hn, hm, _⟩ | ⟨hd, hp, hh, _, _⟩ | ⟨hd, hidle, _, _⟩
  · refine .inr ⟨s.takeEvent.delivered src, ?_, ?_, ?_, ?_⟩
    · rw [step, hn]
      exact deliver_eq_delivered hm
    · simp [ht]
    · simpa using hie
    · have hless := State.workLeft_delivered (s := s.takeEvent) (State.enabled_of_mayDeliver hm).2
      exact hless
  · obtain ⟨d, held, hh⟩ := List.exists_cons_of_ne_nil hh
    exact .inr ⟨_, (step_of_held_after_trace ht hd hh hp).trans (if_pos hp), ht, hie, State.workLeft_arrived hh hp⟩
  · have hlatch : s.rxPend = false := by simpa [State.deliverable, State.pending, hie] using hd .rx
    exact .inl (State.runEnded_of_idle ht hd (by simpa [hlatch] using hidle))

/-- Clause 3 of O51: by induction on the work that is left. -/
theorem run_ends {s : State} (ht : s.trace = []) (hie : s.ie = true) :
    ∃ (k : Nat) (t : State), Sys2Proof.core.run k s = .next t ∧ t.runEnded = true := by
  induction hw : s.workLeft using Nat.strong_induction_on generalizing s with
  | _ n ih =>
    rcases step_after_trace ht hie with hend | ⟨u, hstep, htu, hieu, hless⟩
    · exact ⟨0, s, rfl, hend⟩
    · obtain ⟨k, t, hrun, hend⟩ := ih u.workLeft (hw ▸ hless) htu hieu rfl
      exact ⟨k + 1, t, (run_next hstep).trans hrun, hend⟩

theorem trace_of_steps {st : Nat → State} (h : ∀ n, step (st n) = .next (st (n + 1))) (n k : Nat) :
    (st (n + k)).trace = (st n).trace.drop k := by
  induction k with
  | zero => rfl
  | succ k ih => rw [← Nat.add_assoc, step_trace (h (n + k)), ih, List.tail_drop]

/-- Past the trace's end, the work that is left would fall for ever. -/
theorem not_deliverable_forever_after_trace {st : Nat → State} (h : ∀ n, step (st n) = .next (st (n + 1)))
    (ht : (st 0).trace = []) (src : Source) : ¬∀ n, (st n).deliverable src = true := by
  intro hd
  have hfalls (n : Nat) : (st (n + 1)).workLeft < (st n).workLeft := by
    have htn : (st n).trace = [] := by rw [← Nat.zero_add n, trace_of_steps h, ht, List.drop_nil]
    rcases step_after_trace htn (Bool.and_eq_true_iff.mp (hd n)).1 with hend | ⟨t, hstep, _, _, hless⟩
    · exact absurd hend (by simp [State.not_runEnded_of_deliverable (hd n)])
    · rwa [Host.Outcome.next.inj ((h n).symm.trans hstep)]
  obtain ⟨n, hn⟩ := WellFounded.not_rel_apply_succ (r := (· < ·)) fun n => (st n).workLeft
  exact hn (hfalls n)

/-- No run of the machine keeps a delivery enabled for ever, for each comes to its trace's end. -/
theorem not_deliverable_forever {st : Nat → State} (h : ∀ n, step (st n) = .next (st (n + 1))) (n : Nat) (src : Source) :
    ¬∀ m, n ≤ m → (st m).deliverable src = true := by
  intro hd
  have hend : (st (n + (st n).trace.length)).trace = [] := (trace_of_steps h n _).trans List.drop_length
  exact not_deliverable_forever_after_trace (st := fun k => st (n + (st n).trace.length + k)) (fun k => h _) hend src
    fun k => hd _ (by omega)

/-- An agent's step from outside is the step of the machine with that step at the head of the trace. -/
theorem perform_eq_step (ev : Event) (s : State) : perform ev s = step { s with trace := ev :: s.trace } :=
  (step_takes (s := { s with trace := ev :: s.trace }) rfl).symm

theorem perform_pending {ev : Event} {s t : State} {src : Source} (h : perform ev s = .next t) (hreset : ev.isReset = false)
    (hne : ev ≠ .deliver src) (hp : s.pending src = true) : t.pending src = true := by
  rw [perform_eq_step] at h
  refine step_pending h (fun c e hn => ?_) hne hp
  have hev : ev = .reset c e := hn
  rw [hev] at hreset
  cases hreset

/-- In an execution without resets, a source that is not delivered stays pending. -/
theorem pending_of_not_delivered {ev : Nat → Event} {st : Nat → State} (h : IsExecution ev st) {n : Nat} {src : Source}
    (hp : (st n).pending src = true) (hreset : ∀ m, n ≤ m → (ev m).isReset = false)
    (hne : ∀ m, n ≤ m → ev m ≠ .deliver src) {m : Nat} (hm : n ≤ m) : (st m).pending src = true := by
  induction m, hm using Nat.le_induction with
  | base => exact hp
  | succ m hm ih => exact perform_pending (h m) (hreset m hm) (hne m hm) ih

/-- Clause 2 of O51. -/
theorem delivered_of_weaklyFair {ev : Nat → Event} {st : Nat → State} (h : IsExecution ev st) (hfair : WeaklyFair ev st)
    {n : Nat} {src : Source} (hp : (st n).pending src = true)
    (hon : ∀ m, n ≤ m → (st m).ie = true ∧ (ev m).isReset = false) : ∃ m, n ≤ m ∧ ev m = .deliver src := by
  by_contra hnone
  have hne : ∀ m, n ≤ m → ev m ≠ .deliver src := fun m hm hev => hnone ⟨m, hm, hev⟩
  have henabled : ∀ m, n ≤ m → (st m).deliverable src = true := fun m hm =>
    Bool.and_eq_true_iff.mpr ⟨(hon m hm).1, pending_of_not_delivered h hp (fun m hm => (hon m hm).2) hne hm⟩
  exact hnone (hfair n src henabled)

/-- Settles O51: no run keeps a delivery enabled for ever; in a fair execution a source that is never delivered would stay
enabled; and the work that is left bounds the run after the trace's end. -/
theorem enabledDeliveriesAreEventuallyTaken : Obligations.EnabledDeliveriesAreEventuallyTaken :=
  ⟨fun _ h n src hd => absurd hd (not_deliverable_forever h n src),
    fun _ _ h hfair _ _ hp hon => delivered_of_weaklyFair h hfair hp hon,
    fun _ ht hie => run_ends ht hie⟩

end Sys2Proof.Machine

/-! O55: the state after a hardware reset (70_reset_and_hazards.md R170). Its fields are the `hardReset` laws; the queue and the
pending sources, which are derived, follow from them. -/

namespace Sys2Proof.Machine

/-- The words `c` and `e` of the reset's clock play no part. -/
theorem step_of_reset {s : State} {c e : Option (BitVec 16)} {rest : List Event} (ht : s.trace = .reset c e :: rest) :
    step s = .next ({ s with trace := rest } : State).hardReset :=
  step_takes ht

@[simp] theorem State.queue_hardReset (s : State) : s.hardReset.queue = [] :=
  State.queue_of_avail_cap (congrArg BitVec.toNat s.hardReset_avail)

@[simp] theorem State.pending_hardReset (s : State) (src : Source) : s.hardReset.pending src = false := by
  cases src with
  | rx => exact s.hardReset_rxPend
  | tick => exact s.hardReset_tickPend
  | pwr => simp [State.pending, State.pwrPend]

/-- Settles O55: the step is `hardReset` of the state whose trace has moved on (`step_of_reset`), whose laws say each value. -/
theorem hardwareResetSetsEveryElement : Obligations.HardwareResetSetsEveryElement := by
  intro s c e rest ht
  exact ⟨_, step_of_reset ht, by simp⟩

end Sys2Proof.Machine

/-! O45: where a delivery may be taken (60_exceptions.md R143, R146), said with the sources that stand before it in a fixed list in
place of the first deliverable source of the list. -/

namespace Sys2Proof.Machine

theorem notMem_around_of_nodup {α : Type} {l pre post : List α} {a : α} (hl : l.Nodup) (h : l = pre ++ a :: post) :
    a ∉ pre ∧ a ∉ post := by
  rw [h, List.nodup_middle, List.nodup_cons, List.mem_append, not_or] at hl
  exact hl.1

/-- The first element of a list without repetition that satisfies `p`: it does, and nothing before it does. -/
theorem find?_eq_some_iff_of_nodup {α : Type} {l : List α} (hl : l.Nodup) {p : α → Bool} {a : α} (ha : a ∈ l) :
    l.find? p = some a ↔ p a = true ∧ ∀ pre post, l = pre ++ a :: post → ∀ x ∈ pre, p x = false := by
  rw [List.find?_eq_some_iff_append]
  constructor
  · rintro ⟨hpa, pre, post, h, hbefore⟩
    refine ⟨hpa, fun pre' post' h' x hx => ?_⟩
    obtain ⟨hpre, hpost⟩ := notMem_around_of_nodup hl h
    obtain ⟨rfl, -, -⟩ := (List.append_cons_inj_of_notMem hpre hpost).mp (h.symm.trans h')
    simpa using hbefore x hx
  · rintro ⟨hpa, hbefore⟩
    obtain ⟨pre, post, h⟩ := List.append_of_mem ha
    exact ⟨hpa, pre, post, h, fun x hx => by simp [hbefore pre post h x hx]⟩

theorem Priority.nodup_order (p : Priority) : (Priority.order p).Nodup := by cases p <;> decide

theorem Priority.mem_order (p : Priority) (src : Source) : src ∈ Priority.order p := by cases p <;> cases src <;> decide

/-- Under a fixed list, no source that stands before `src` is pending (60_exceptions.md R146). -/
def State.FirstInOrder (s : State) (src : Source) : Prop :=
  ∀ p, s.params.irqOrder = .fixed p → ∀ pre post, Priority.order p = pre ++ src :: post →
    ∀ x, x ∈ pre → s.pending x = false

theorem State.mayDeliver_iff (s : State) (src : Source) :
    s.mayDeliver src = true ↔ s.ie = true ∧ s.pending src = true ∧ s.FirstInOrder src := by
  cases hie : s.ie with
  | false => simp [State.mayDeliver, State.deliverable, hie]
  | true =>
    have hdel : s.deliverable = s.pending := funext fun x => by rw [State.deliverable, hie, Bool.true_and]
    cases ho : s.params.irqOrder with
    | any => simp [State.mayDeliver, State.FirstInOrder, hdel, ho]
    | fixed p =>
      have hfirst := find?_eq_some_iff_of_nodup (Priority.nodup_order p) (p := s.pending) (Priority.mem_order p src)
      simp [State.mayDeliver, State.FirstInOrder, hdel, ho, hfirst]

/-- Settles O45: the delivery is `deliver`, which stops unless `mayDeliver` (`deliver_cases`), and `mayDeliver_iff` says when. -/
theorem deliveryNeedsEnableAndTurn : Obligations.DeliveryNeedsEnableAndTurn := by
  intro s src rest ht
  change ((∃ t, step s = .next t) ↔ s.ie = true ∧ s.pending src = true ∧ s.FirstInOrder src) ∧ _
  rw [← State.mayDeliver_iff]
  have hstep : step s = deliver src { s with trace := rest } := step_takes ht
  rcases deliver_cases src { s with trace := rest } with ⟨hm, _⟩ | ⟨hm, he⟩
  · have hnext := step_delivered ht hm
    exact ⟨⟨fun _ => hm, fun _ => ⟨_, hnext⟩⟩, fun hnone => absurd ⟨_, hnext⟩ hnone⟩
  · have hfault := hstep.trans he
    have hm : s.mayDeliver src = false := hm
    exact ⟨by simp [hfault, hm], fun _ => hfault⟩

end Sys2Proof.Machine

/-! O6: the state that `withFetchWord` gives (log 14, 16). A word on port C or E stands at the head of the trace; a port-I operation
is armed as the delivery of its source, which changes nothing but `ie`, the pending sources and the latch. -/

namespace Sys2Proof.Machine

theorem State.withFetchWord_toNat (s : State) (w : Word) : s.withFetchWord 24 w.toNat = s.presentWord w := by
  have hlt : w.toNat < 2 ^ 24 := Nat.lt_of_lt_of_le w.isLt (by decide)
  rw [State.withFetchWord, State.presentTableWord, Nat.mod_eq_of_lt hlt, BitVec.ofNat_toNat, BitVec.setWidth_eq]

/-- A word that is no port-I word stands at the head of the trace. -/
theorem State.presentWord_of_ne_portI {w : Word} (hp : wordPort w ≠ 0b10#2) (s : State) :
    s.presentWord w = { s with trace := .word w :: s.trace } := by
  unfold State.presentWord
  split
  · next h => exact absurd rfl (ne_of_decode_of_portI h hp (wordPort_tagWord ..))
  · next h => exact absurd rfl (ne_of_decode_of_portI h hp (wordPort_tagWord ..))
  · next h => exact absurd rfl (ne_of_decode_of_portI h hp (wordPort_tagWord ..))
  · rfl

theorem portI_of_decode {w : Word} {i : Instr} (hd : decode w = .ok i) (hp : wordPort w = 0b10#2) :
    (∃ d, i = .push d) ∨ i = .tickInc ∨ i = .pwrService := by
  have h : decodePortI w = .ok i := by simpa [decode, hp] using hd
  unfold decodePortI at h
  split at h
  · exact .inl (exists_of_decodeByte h)
  · exact .inr (.inl (eq_of_decodePlain h))
  · exact .inr (.inr (eq_of_decodePlain h))
  · cases h

/-- What the presentation of a port-I word and its delivery's own acknowledgement leave as it is. -/
def State.unarmedParts (s : State) :=
  (s.mem, s.wr, s.rd, s.avail, s.tick, s.savedIe, s.depth, s.faultCode, s.faultWord, s.params, s.trace, s.rxHeld, s.epoch, s.turn)

theorem State.pending_onlyPending_self (s : State) (src : Source) : (s.onlyPending src).pending src = s.pending src := by
  cases src <;> simp [State.pending, State.onlyPending, State.pwrPend]

theorem State.pending_onlyPending_of_ne {src x : Source} (hne : src ≠ x) (s : State) :
    (s.onlyPending src).pending x = false := by
  cases x <;> simp [State.pending, State.onlyPending, State.pwrPend, hne]

/-- An armed source may be delivered: with delivery on it is pending, and if its turn were not come, no other source would be. -/
theorem State.mayDeliver_armDelivery {s : State} {src : Source} (hp : s.pending src = true) :
    (s.armDelivery src).mayDeliver src = true := by
  unfold State.armDelivery
  split
  · assumption
  · rw [State.mayDeliver_iff]
    refine ⟨rfl, (State.pending_onlyPending_self _ src).trans (by cases src <;> exact hp), ?_⟩
    intro p _ pre post horder x hx
    have hne : src ≠ x := fun he => (notMem_around_of_nodup (Priority.nodup_order p) horder).1 (he ▸ hx)
    exact State.pending_onlyPending_of_ne hne _

/-- Arming puts the delivery before the steps to come and keeps its operand, and the delivery finds the rest as it was. -/
theorem State.armDelivery_keeps (s : State) (src : Source) :
    (s.armDelivery src).trace = .deliver src :: s.trace
    ∧ deliveryInstr src (s.armDelivery src) = deliveryInstr src s
    ∧ (({ s.armDelivery src with trace := s.trace } : State).acknowledge src).unarmedParts = s.unarmedParts := by
  unfold State.armDelivery
  split <;> cases src <;> exact ⟨rfl, rfl, rfl⟩

/-- The armed delivery is the next step and performs the operation of its source. -/
theorem step_armDelivery {s : State} {src : Source} (hp : s.pending src = true) :
    ∃ u, step (s.armDelivery src) = exec (deliveryInstr src s) u ∧ u.unarmedParts = s.unarmedParts := by
  obtain ⟨htrace, hop, hparts⟩ := s.armDelivery_keeps src
  exact ⟨_, hop ▸ step_of_delivery htrace (State.mayDeliver_armDelivery hp), hparts⟩

theorem step_presentWord_of_portI {s : State} {w : Word} {i : Instr} (hd : decode w = .ok i) (hp : wordPort w = 0b10#2) :
    ∃ u, step (s.presentWord w) = exec i u ∧ u.unarmedParts = s.unarmedParts := by
  rcases portI_of_decode hd hp with ⟨d, rfl⟩ | rfl | rfl <;> simp only [State.presentWord, hd]
  · exact step_armDelivery (s := { s with rxPend := true, rxData := d }) (src := .rx) rfl
  · exact step_armDelivery (s := { s with tickPend := true }) (src := .tick) rfl
  · refine step_armDelivery (s := { s with pwrStat := if s.pwrStat = 0 then 0b0001 else s.pwrStat }) (src := .pwr) ?_
    rw [State.pending_pwr_iff]
    change (if s.pwrStat = 0 then 0b0001#4 else s.pwrStat) ≠ 0
    split
    · decide
    · assumption

/-- Settles O6: an arrival of the word at the head of the trace (`step_of_word`), or the armed delivery. -/
theorem presentedWordRunsNext : Obligations.PresentedWordRunsNext := by
  refine ⟨fun s w i hd hp => ?_, fun s w i hd hp => ?_⟩ <;> rw [State.withFetchWord_toNat]
  · rw [State.presentWord_of_ne_portI hp]
    exact step_of_word rfl hp hd
  · obtain ⟨u, hstep, hparts⟩ := step_presentWord_of_portI (s := s) hd hp
    exact ⟨u, hstep, by simpa [State.unarmedParts] using hparts⟩

end Sys2Proof.Machine

/-! O9, O13, O14, O52, O56, O58: one step of each kind with its whole effect (40_fifo.md R87; log 7, 9, 11), and reset. -/

namespace Sys2Proof.Machine

/-- Settles O9: the word arrives, and `arrive` refuses it. -/
theorem portIWordIsNoInput : Obligations.PortIWordIsNoInput :=
  fun _ _ _ ht hp => (step_takes ht).trans (if_pos hp)

/-- Settles O13: the branch of RX_ARRIVE for a full latch, by RX_OVERRUN. -/
theorem rxArriveOnAFullLatchFollowsRxOverrun : Obligations.RxArriveOnAFullLatchFollowsRxOverrun := by
  intro d s hp
  have hfull : ¬s.rxPend = false := by simp [hp]
  refine ⟨fun ho => ?_, fun ho => ?_, fun ho => ?_⟩ <;> rw [exec, execRxArrive, if_neg hfull, ho] <;> rfl

/-- Settles O14: the offer stalls at a full latch; at an empty one it is an RX_ARRIVE of the byte, as in O12. -/
theorem heldByteWaitsForTheLatch : Obligations.HeldByteWaitsForTheLatch := by
  intro s d held rest ht hh ho
  have hstep : step s = offerHeld { s with trace := rest } := step_takes ht
  have hempty (hp : s.rxPend = false) : offerHeld { s with trace := rest } = _ := offerHeld_of_latch_empty hh hp
  exact ⟨fun hp => hstep.trans (offerHeld_of_stalled hh hp ho),
    fun hp => hstep.trans ((hempty hp).trans (rxArriveLatchesTheByte.2 d _ hp))⟩

/-- After the trace's end, with no delivery enabled and no held byte that can arrive, the clock is idle (log 7, 25). -/
theorem step_idle_after_trace {s : State} (ht : s.trace = []) (hnone : ∀ src, s.deliverable src = false)
    (hidle : s.rxPend = true ∨ s.rxHeld = []) : step s = .next s.silent := by
  rcases State.nextEvent_nil ht with ⟨x, _, hm, _⟩ | ⟨_, hp, hh, _⟩ | ⟨_, _, hev, htake⟩
  · exact absurd (State.deliverable_of_mayDeliver hm) (by simp [hnone x])
  · exact absurd hidle (by simp [hp, hh])
  · rw [step, hev, htake, perform]

/-- Settles O52: an idle clock of the trace, and the one after its end. -/
theorem idleClockPerformsNothing : Obligations.IdleClockPerformsNothing :=
  ⟨fun _ _ ht => step_takes ht, fun _ ht hnone hidle => step_idle_after_trace ht hnone hidle⟩

/-- After a reset nothing is written, so every entry holds the unspecified byte of the new epoch (log 2). -/
theorem State.memRead_hardReset (s : State) (a : Nat) : s.hardReset.memRead a = Config.freeMemByte (s.epoch + 1) a := rfl

/-- Settles O56: the step is `hardReset` (`step_of_reset`), whose laws say each value. -/
theorem resetKeepsWhatIsOutsideTheBlock : Obligations.ResetKeepsWhatIsOutsideTheBlock := by
  intro s c e rest ht
  exact ⟨_, step_of_reset ht, rfl, rfl, rfl, rfl, rfl, rfl, State.memRead_hardReset _⟩

/-- Settles O58: the FIFO is empty, no section is open, no fault is recorded and no byte is held. -/
theorem resetStateIsSound : Obligations.ResetStateIsSound where
  availInRange := Nat.le_refl 128
  indexRelation := (by decide : 128 % 128 = 0 % 128)
  maskedInSection := fun _ => rfl
  faultRecordLegal := .inl ⟨rfl, rfl⟩
  storageCanonical := Memory.wf_reset
  queueWritten := fun _ hk => absurd hk (Nat.not_lt_zero _)
  heldOnlyUnderStall := fun h => absurd rfl h

end Sys2Proof.Machine
